-- ==== Sys2Proof/Word.lean ====
section
/-! DEFINITION. The plain words of the model: bytes, two-byte quantities, slot numbers. -/

namespace Sys2Proof

/-- A byte on D7 to D0, in the Stage or in a record. -/
abbrev Byte := BitVec 8

/-- A 16-bit quantity (a tick count, a period, a stamp). -/
abbrev Word16 := BitVec 16

/-- A slot of the Task Table, 0 to 15 (R1). -/
abbrev Slot := Fin 16

/-- A position on the address lines A4 to A0 (R152). -/
abbrev Addr := BitVec 5

/-- The sixteen slots in ascending order (R37). -/
def allSlots : List Slot := List.finRange 16

end Sys2Proof
end

