-- ==== Sys2Proof/Syntax.lean ====
section
/-! DEFINITION. The commands of the block: one constructor of Instr for each row of spec/opcode_table.json. -/

namespace Sys2Proof

/-- A logic level of a pin. -/
inductive Level where
  | low
  | high
  deriving DecidableEq, Repr

/-- The register read by TASK_LATCH_READ: TLATL (slots 0 to 7) or TLATH (slots 8 to 15) (R144). -/
inductive LatchHalf where
  | tlatl
  | tlath
  deriving DecidableEq, Repr

/-- The width of a low pulse on RES#, against the two figures of section 9.6 (R161). -/
inductive ResWidth where
  /-- at least the minimum width: a power-on reset -/
  | full
  /-- narrower than the minimum and wider than the rejection width: a complete reset or nothing -/
  | marginal
  /-- at or below the rejection width: ignored -/
  | rejected
  deriving DecidableEq, Repr

/-- How long TRIG holds its new level, against the minimum time of section 9.6 (R34). -/
inductive TrigHold where
  /-- at least the minimum time: the edge is recognised -/
  | full
  /-- less than the minimum time: the edge is recognised or not -/
  | short
  deriving DecidableEq, Repr

/-- The commands and events of the GS-16. Each is one whole, indivisible step. -/
inductive Instr where
  /-- LOAD (R14): code 01h written to CMD -/
  | load
  /-- COMMIT (R16): code 02h -/
  | commit
  /-- START (R44): code 10h -/
  | start
  /-- STOP (R45): code 11h -/
  | stop
  /-- TRIGGER (R33): code 12h -/
  | trigger
  /-- HALT (R49): code 20h -/
  | halt
  /-- RESUME (R51): code 21h -/
  | resume
  /-- FLUSH (R133): code 30h -/
  | flush
  /-- DISCARD (R132): code 31h -/
  | discard
  /-- RESET (R160): code 5Ah; `trig` is the level on TRIG at the end of the reset (R34) -/
  | reset (trig : Level)
  /-- BAD_CMD (R156): a code that is no command, written to CMD -/
  | badCmd (code : Byte)
  /-- STOFS_WRITE (R9) -/
  | stofsWrite (value : Byte)
  /-- STDATA_READ (R10) -/
  | stdataRead
  /-- STDATA_WRITE (R11) -/
  | stdataWrite (value : Byte)
  /-- RQDATA_READ (R129) -/
  | rqdataRead
  /-- LOSTCNT_READ (R124) -/
  | lostcntRead
  /-- TASK_LATCH_READ (R144) -/
  | taskLatchRead (half : LatchHalf)
  /-- SLAT_READ (R144) -/
  | slatRead
  /-- TICKL_READ (R28) -/
  | ticklRead
  /-- REGISTER_WRITE (R153): a write to any position other than CMD, STOFS and STDATA -/
  | registerWrite (addr : Addr) (value : Byte)
  /-- POWER_ON_RESET (R161): a low pulse on RES#; `trig` is the level on TRIG at the rise of RES# -/
  | powerOnReset (width : ResWidth) (trig : Level)
  /-- TRIG_EDGE (R34): TRIG takes the level other than the detector's reference -/
  | trigEdge (hold : TrigHold)
  /-- TICK (R25): the Tick Timer expires -/
  | tick
  /-- COUNTDOWN_EXPIRY (R29): the Tick Timer expires and brings the countdown of `slot` to 0 -/
  | countdownExpiry (slot : Slot)
  /-- TAKE (R42) -/
  | take
  /-- SETTLING_EXPIRY (R58) -/
  | settlingExpiry
  /-- COARSE_CONVERSION_END (R60) with the coarse value c -/
  | coarseConversionEnd (c : BitVec 6)
  /-- SAMPLE (R61): a sample that is not the A-th, its code and whether it overscaled -/
  | sample (code : BitVec 12) (overscaled : Bool)
  /-- DELIVERY (R66): the A-th sample, its code and whether it overscaled -/
  | delivery (code : BitVec 12) (overscaled : Bool)
  /-- CLK_STOP (R164) -/
  | clkStop
  /-- CLK_RUNS_AGAIN (R164) -/
  | clkRunsAgain
  /-- VCC_APPLIED (R161) -/
  | vccApplied
  deriving DecidableEq, Repr

end Sys2Proof
end

