-- ==== Sys2Proof/WellFormed.lean ====
section
/-! DEFINITION. Which terms are commands of the table: two rows exclude the operands that another row owns. -/

namespace Sys2Proof

/-- The ten command codes of R156. -/
def commandCodes : List Byte :=
  [0x01#8, 0x02#8, 0x10#8, 0x11#8, 0x12#8, 0x20#8, 0x21#8, 0x30#8, 0x31#8, 0x5A#8]

/-- The positions at which a write is not a REGISTER_WRITE: CMD, STOFS and STDATA (R152, R153). -/
def ownedWritePositions : List Addr := [0x00#5, 0x05#5, 0x06#5]

/-- A term that is a command of the table: BAD_CMD carries no command's code, REGISTER_WRITE no other row's position. -/
def Instr.wellFormed : Instr → Bool
  | .badCmd code => !commandCodes.contains code
  | .registerWrite addr _ => !ownedWritePositions.contains addr
  | .load | .commit | .start | .stop | .trigger | .halt | .resume | .flush | .discard | .reset _ => true
  | .stofsWrite _ | .stdataRead | .stdataWrite _ | .rqdataRead | .lostcntRead | .taskLatchRead _ => true
  | .slatRead | .ticklRead | .powerOnReset _ _ | .trigEdge _ | .tick | .countdownExpiry _ | .take => true
  | .settlingExpiry | .coarseConversionEnd _ | .sample _ _ | .delivery _ _ => true
  | .clkStop | .clkRunsAgain | .vccApplied => true

end Sys2Proof
end

