-- ==== Sys2Proof/Decode.lean ====
section
/-! DEFINITION. From a bus access to the command it is (R152, R153, R155, R156), and back.
The rows of spec/opcode_table.json give no bits, so no word of the table spells a command. -/

namespace Sys2Proof

/-- The command that a word spells by the bits of spec/opcode_table.json: no row of it gives any bits (log entry 2). -/
def decodeTableWord (_nbits _w : Nat) : Option Instr := none

/-- The command a write of `code` to CMD is (R155, R156); `trig` is the level on TRIG, which RESET reads (R34). -/
def decodeCode (trig : Level) (code : Byte) : Instr :=
  if code = 0x01#8 then .load
  else if code = 0x02#8 then .commit
  else if code = 0x10#8 then .start
  else if code = 0x11#8 then .stop
  else if code = 0x12#8 then .trigger
  else if code = 0x20#8 then .halt
  else if code = 0x21#8 then .resume
  else if code = 0x30#8 then .flush
  else if code = 0x31#8 then .discard
  else if code = 0x5A#8 then .reset trig
  else .badCmd code

/-- The command a write of `value` to position `addr` is (R152, R153). -/
def decodeWrite (trig : Level) (addr : Addr) (value : Byte) : Instr :=
  if addr = 0x00#5 then decodeCode trig value
  else if addr = 0x05#5 then .stofsWrite value
  else if addr = 0x06#5 then .stdataWrite value
  else .registerWrite addr value

/-- The command a read of position `addr` is: the seven reads of R154 that change the part; a read of any other
position changes nothing and is no command of the table. -/
def decodeRead (addr : Addr) : Option Instr :=
  if addr = 0x06#5 then some .stdataRead
  else if addr = 0x07#5 then some .rqdataRead
  else if addr = 0x0B#5 then some .lostcntRead
  else if addr = 0x0C#5 then some (.taskLatchRead .tlatl)
  else if addr = 0x0D#5 then some (.taskLatchRead .tlath)
  else if addr = 0x0E#5 then some .slatRead
  else if addr = 0x14#5 then some .ticklRead
  else none

/-- The position and byte of the bus write that a command is, if it is one. -/
def encodeWrite : Instr → Option (Addr × Byte)
  | .load => some (0x00#5, 0x01#8)
  | .commit => some (0x00#5, 0x02#8)
  | .start => some (0x00#5, 0x10#8)
  | .stop => some (0x00#5, 0x11#8)
  | .trigger => some (0x00#5, 0x12#8)
  | .halt => some (0x00#5, 0x20#8)
  | .resume => some (0x00#5, 0x21#8)
  | .flush => some (0x00#5, 0x30#8)
  | .discard => some (0x00#5, 0x31#8)
  | .reset _ => some (0x00#5, 0x5A#8)
  | .badCmd code => some (0x00#5, code)
  | .stofsWrite value => some (0x05#5, value)
  | .stdataWrite value => some (0x06#5, value)
  | .registerWrite addr value => some (addr, value)
  | .stdataRead | .rqdataRead | .lostcntRead | .taskLatchRead _ | .slatRead | .ticklRead => none
  | .powerOnReset _ _ | .trigEdge _ | .tick | .countdownExpiry _ | .take | .settlingExpiry => none
  | .coarseConversionEnd _ | .sample _ _ | .delivery _ _ | .clkStop | .clkRunsAgain | .vccApplied => none

/-- The position of the bus read that a command is, if it is one. -/
def encodeRead : Instr → Option Addr
  | .stdataRead => some 0x06#5
  | .rqdataRead => some 0x07#5
  | .lostcntRead => some 0x0B#5
  | .taskLatchRead .tlatl => some 0x0C#5
  | .taskLatchRead .tlath => some 0x0D#5
  | .slatRead => some 0x0E#5
  | .ticklRead => some 0x14#5
  | .load | .commit | .start | .stop | .trigger | .halt | .resume | .flush | .discard | .reset _ => none
  | .badCmd _ | .stofsWrite _ | .stdataWrite _ | .registerWrite _ _ => none
  | .powerOnReset _ _ | .trigEdge _ | .tick | .countdownExpiry _ | .take | .settlingExpiry => none
  | .coarseConversionEnd _ | .sample _ _ | .delivery _ _ | .clkStop | .clkRunsAgain | .vccApplied => none

end Sys2Proof
end

