-- ==== Sys2Proof/Config.lean ====
section
/-! DEFINITION. What the spec leaves to the part: the one free value of the model, an opaque constant with no body. -/

namespace Sys2Proof

/-- Whether the part takes the k-th pulse for which the spec allows both: a low pulse on RES# narrower than the minimum
width and wider than the rejection width (R161), or a level of TRIG held for less than the minimum time (R34).
Nothing is known of it (log entry 10). -/
opaque Config.pulseTaken : Nat → Bool

end Sys2Proof
end

