-- ==== Sys2Proof/Machine/Types.lean ====
section
/-! DEFINITION. The named values, records and entries that the state is made of (00_scope.md, Names in capitals). -/

namespace Sys2Proof.Machine

/-- The four causes a task waits for (R2). -/
inductive StartMode where
  | periodic | host | external | chained
  deriving DecidableEq, Repr

/-- Which results make records (R2, R104). -/
inductive RecordMode where
  | always | onEvent | everyN | none
  deriving DecidableEq, Repr

/-- Resolution of a conversion: 8, 10 or 12 bits (R2). -/
inductive Resolution where
  | bits8 | bits10 | bits12
  deriving DecidableEq, Repr

/-- Averaging count A: 1, 2, 4 or 8 samples (R2). -/
inductive Averaging where
  | x1 | x2 | x4 | x8
  deriving DecidableEq, Repr

/-- Gain of the gain stage: ×1, ×2, ×4 or ×8. -/
inductive Gain where
  | x1 | x2 | x4 | x8
  deriving DecidableEq, Repr

/-- Gain policy (R2, R75, R76). -/
inductive GainPolicy where
  | fix1 | fix2 | fix4 | fix8 | auto
  deriving DecidableEq, Repr

/-- Task state (R3). -/
inductive TaskState where
  | stopped | armed | queued | converting
  deriving DecidableEq, Repr

/-- Zone of a task (R3). -/
inductive Zone where
  | unknown | below | inside | above
  deriving DecidableEq, Repr

/-- Device run state (R48). -/
inductive RunState where
  | running | halting | halted
  deriving DecidableEq, Repr

/-- What an insertion does when the record does not fit (R116, R135). -/
inductive QueuePolicy where
  | dropNew | overwrite
  deriving DecidableEq, Repr

/-- TRIGCFG bits 1-0 (R34). -/
inductive TrigSetting where
  | off | rise | fall | both
  deriving DecidableEq, Repr

/-- The nine result codes of CMDST (R157). -/
inductive ResultCode where
  | ok | badCmd | badSlot | state | locked | badField | badWindow | linkLoop | empty
  deriving DecidableEq, Repr

/-- The configuration part of a task record (R2). Every field's type is its range; `decim` is decimation N minus 1, as
the image holds it (R12). -/
structure TaskConfig where
  mode : StartMode
  single : Bool
  stamp : Bool
  recMode : RecordMode
  priority : Fin 4
  channel : Fin 16
  res : Resolution
  avg : Averaging
  policy : GainPolicy
  settle : Fin 16
  firstZone : Bool
  enAbove : Bool
  enInside : Bool
  enBelow : Bool
  decim : Fin 16
  period : Word16
  phase : Word16
  low : BitVec 15
  high : BitVec 15
  hyst : BitVec 14
  link : Option Slot
  deriving DecidableEq, Repr

/-- The runtime part of a task record (R3). -/
structure TaskRuntime where
  state : TaskState
  zone : Zone
  gain : Gain
  lastFired : Bool
  lastOver : Bool
  missCount : Byte
  decCount : BitVec 4
  countdown : Word16
  lastN : BitVec 15
  lastCode : BitVec 12
  deriving DecidableEq, Repr

/-- A task record: its configuration part and its runtime part (R1). -/
structure Task where
  cfg : TaskConfig
  rt : TaskRuntime
  deriving DecidableEq, Repr

/-- The sixteen task records (R1). -/
abbrev TaskTable := Vector Task 16

/-- The Stage: one 24-byte image and STOFS (R8). -/
structure Stage where
  image : Vector Byte 24
  ofs : Fin 24
  deriving DecidableEq, Repr

/-- An entry of the Run Queue: a slot and the rank fixed when the entry was made; 0 to 3 is a normal entry's priority,
4 a chained entry (R38). -/
structure RunEntry where
  slot : Slot
  rank : Fin 5
  deriving DecidableEq, Repr

/-- How a task is entered into the Run Queue (R31). -/
inductive EntryKind where
  | normal | chained
  deriving DecidableEq, Repr

/-- The working states of the Conversion Unit; IDLE is the absence of a conversion (R55). -/
inductive ConvPhase where
  | settling | ranging | sampling
  deriving DecidableEq, Repr

/-- The unit state of R55. -/
inductive UnitState where
  | idle | settling | ranging | sampling
  deriving DecidableEq, Repr

/-- The conversion parameters copied at the take (R56). -/
structure ConvParams where
  channel : Fin 16
  res : Resolution
  avg : Averaging
  policy : GainPolicy
  settle : Fin 16
  deriving DecidableEq, Repr

/-- The state of the Conversion Unit while a conversion is in progress (R55). -/
structure Conversion where
  phase : ConvPhase
  slot : Slot
  params : ConvParams
  workingGain : Gain
  coarse : Option (BitVec 6)
  samples : Nat
  sum : Nat
  overSeen : Bool
  deriving DecidableEq, Repr

/-- The result a completed conversion delivers (R65). -/
structure ConvResult where
  slot : Slot
  code : BitVec 12
  gain : Gain
  res : Resolution
  overFlag : Bool
  deriving DecidableEq, Repr

/-- What the Window Monitor hands to the Record Builder (R97). -/
structure WindowOutcome where
  slot : Slot
  zone : Zone
  fired : Bool
  code : BitVec 12
  gain : Gain
  res : Resolution
  overFlag : Bool
  deriving DecidableEq, Repr

/-- A composed RESULT record without its sequence number, as it is offered (R107, R112). -/
structure RecordBody where
  slot : Slot
  zone : Zone
  evt : Bool
  overFlag : Bool
  gain : Gain
  res : Resolution
  code : BitVec 12
  stamp : Option Word16
  miss : Option Byte
  deriving DecidableEq, Repr

/-- A stored record: RESULT or GAP, with its sequence number (R113, R116). -/
inductive QRecord where
  | result (seq : Byte) (body : RecordBody)
  | gap (seq : Byte) (lost : Byte)
  deriving DecidableEq, Repr

/-- The Result Queue (R116). `readIndex` is `some i` while the oldest record is open and `i` is the position of the next
byte RQDATA returns. RQBYTES and RQRECS are computed from the list (R117). -/
structure ResultQueue where
  records : List QRecord
  readIndex : Option Nat
  nextSeq : Byte
  pendingGap : Byte
  lostcnt : Byte
  policy : QueuePolicy
  watermark : BitVec 5
  deriving DecidableEq, Repr

/-- The course an insertion takes (R119). -/
inductive Course where
  | store | evict | drop
  deriving DecidableEq, Repr

/-- The seven system latches, SLAT bits 0 to 6 (R139). -/
structure SysLatches where
  qready : Bool
  qover : Bool
  qunder : Bool
  miss : Bool
  abort : Bool
  halted : Bool
  cmderr : Bool
  deriving DecidableEq, Repr

/-- A bus access taken while CLK is stopped, whose change waits, with the byte a read returned (R164). -/
structure WaitingAccess where
  access : Instr
  returned : Byte
  deriving DecidableEq, Repr

end Sys2Proof.Machine
end

