-- ==== Sys2Proof/Machine/Operands.lean ====
section
/-! DEFINITION. The encodings of the spec: the numbers the named values stand for, the Stage image (R12, R13), the
configuration bytes that COMMIT checks (R17, R18), the records (R113) and the result codes (R157). -/

namespace Sys2Proof.Machine

/-- Bits 15 to 8 of a two-byte quantity, the byte transferred first (R12). -/
def hiByte (w : Word16) : Byte := w.extractLsb' 8 8

/-- Bits 7 to 0 of a two-byte quantity. -/
def loByte (w : Word16) : Byte := w.extractLsb' 0 8

/-- A two-byte quantity from its bytes, high byte first (R12). -/
def joinBytes (hi lo : Byte) : Word16 := hi ++ lo

/-! ### The numbers the names stand for -/

/-- Bits of resolution (R2). -/
def Resolution.width : Resolution → Nat
  | .bits8 => 8
  | .bits10 => 10
  | .bits12 => 12

/-- The full-scale code 2^res − 1 (R61). -/
def Resolution.fullScale (r : Resolution) : Nat := 2 ^ r.width - 1

/-- The averaging count A (R2). -/
def Averaging.count : Averaging → Nat
  | .x1 => 1
  | .x2 => 2
  | .x4 => 4
  | .x8 => 8

/-- The factor of a gain: 1, 2, 4 or 8. -/
def Gain.factor : Gain → Nat
  | .x1 => 1
  | .x2 => 2
  | .x4 => 4
  | .x8 => 8

/-- The gain a fixed policy names; none under AUTO (R75). -/
def GainPolicy.fixedGain : GainPolicy → Option Gain
  | .fix1 => some .x1
  | .fix2 => some .x2
  | .fix4 => some .x4
  | .fix8 => some .x8
  | .auto => none

/-- Decimation N, 1 to 16: the image holds N − 1 (R12). -/
def TaskConfig.decimation (c : TaskConfig) : Nat := c.decim.val + 1

/-- The length of SETTLING in CLK periods, 8 × (settle + 1) (R58). -/
def settlingLength (settle : Fin 16) : Nat := 8 * (settle.val + 1)

/-- The length of a tick period in CLK periods, 64 × (TICKDIV + 1) (R25). -/
def tickLength (div : Word16) : Nat := 64 * (div.toNat + 1)

/-- The length of a whole conversion in CLK periods, for information (section 3.8). -/
def conversionLength (p : ConvParams) : Nat :=
  settlingLength p.settle + (if p.policy = .auto then 4 else 0) + p.avg.count * (p.res.width + 2) + 2

/-! ### Bit fields of the image and of the records -/

/-- MODE bits 7-6 (R12). -/
def StartMode.enc : StartMode → BitVec 2
  | .periodic => 0#2
  | .host => 1#2
  | .external => 2#2
  | .chained => 3#2

/-- The start mode of MODE bits 7-6 (R12). -/
def startModeOf (b : BitVec 2) : StartMode :=
  if b = 0#2 then .periodic else if b = 1#2 then .host else if b = 2#2 then .external else .chained

/-- MODE bits 3-2 (R12). -/
def RecordMode.enc : RecordMode → BitVec 2
  | .always => 0#2
  | .onEvent => 1#2
  | .everyN => 2#2
  | .none => 3#2

/-- The record mode of MODE bits 3-2 (R12). -/
def recordModeOf (b : BitVec 2) : RecordMode :=
  if b = 0#2 then .always else if b = 1#2 then .onEvent else if b = 2#2 then .everyN else .none

/-- INPUT bits 3-2, and bits 1-0 of a record's flags (R12, R113). -/
def Resolution.enc : Resolution → BitVec 2
  | .bits8 => 0#2
  | .bits10 => 1#2
  | .bits12 => 2#2

/-- The resolution of INPUT bits 3-2; 11 is invalid (R12). -/
def resolutionOf (b : BitVec 2) : Option Resolution :=
  if b = 0#2 then some .bits8 else if b = 1#2 then some .bits10 else if b = 2#2 then some .bits12 else none

/-- INPUT bits 1-0 (R12). -/
def Averaging.enc : Averaging → BitVec 2
  | .x1 => 0#2
  | .x2 => 1#2
  | .x4 => 2#2
  | .x8 => 3#2

/-- The averaging of INPUT bits 1-0 (R12). -/
def averagingOf (b : BitVec 2) : Averaging :=
  if b = 0#2 then .x1 else if b = 1#2 then .x2 else if b = 2#2 then .x4 else .x8

/-- FRONT bits 7-5 (R12). -/
def GainPolicy.enc : GainPolicy → BitVec 3
  | .fix1 => 0#3
  | .fix2 => 1#3
  | .fix4 => 2#3
  | .fix8 => 3#3
  | .auto => 4#3

/-- The gain policy of FRONT bits 7-5; 101 to 111 are invalid (R12). -/
def gainPolicyOf (b : BitVec 3) : Option GainPolicy :=
  if b = 0#3 then some .fix1 else if b = 1#3 then some .fix2 else if b = 2#3 then some .fix4
  else if b = 3#3 then some .fix8 else if b = 4#3 then some .auto else none

/-- STATE bits 7-6 (R12). -/
def TaskState.enc : TaskState → BitVec 2
  | .stopped => 0#2
  | .armed => 1#2
  | .queued => 2#2
  | .converting => 3#2

/-- STATE bits 5-4, and bits 7-6 of a record's flags (R12, R113). -/
def Zone.enc : Zone → BitVec 2
  | .unknown => 0#2
  | .below => 1#2
  | .inside => 2#2
  | .above => 3#2

/-- STATE bits 3-2, and bits 3-2 of a record's flags (R12, R113). -/
def Gain.enc : Gain → BitVec 2
  | .x1 => 0#2
  | .x2 => 1#2
  | .x4 => 2#2
  | .x8 => 3#2

/-- DSTAT bits 7-6 (R162). -/
def RunState.enc : RunState → BitVec 2
  | .running => 0#2
  | .halting => 1#2
  | .halted => 2#2

/-- TRIGCFG bits 1-0 (R34). -/
def TrigSetting.enc : TrigSetting → BitVec 2
  | .off => 0#2
  | .rise => 1#2
  | .fall => 2#2
  | .both => 3#2

/-- The setting of TRIGCFG bits 1-0 (R34). -/
def trigSettingOf (b : BitVec 2) : TrigSetting :=
  if b = 0#2 then .off else if b = 1#2 then .rise else if b = 2#2 then .fall else .both

/-- The byte of CMDST (R157). -/
def ResultCode.byte : ResultCode → Byte
  | .ok => 0x00#8
  | .badCmd => 0x01#8
  | .badSlot => 0x02#8
  | .state => 0x03#8
  | .locked => 0x04#8
  | .badField => 0x05#8
  | .badWindow => 0x06#8
  | .linkLoop => 0x07#8
  | .empty => 0x08#8

/-! ### The Stage image (R12, R13) -/

/-- Byte 0, MODE. -/
def modeByte (c : TaskConfig) : Byte :=
  c.mode.enc ++ BitVec.ofBool c.single ++ BitVec.ofBool c.stamp ++ c.recMode.enc ++ (BitVec.ofFin c.priority : BitVec 2)

/-- Byte 1, INPUT. -/
def inputByte (c : TaskConfig) : Byte :=
  (BitVec.ofFin c.channel : BitVec 4) ++ c.res.enc ++ c.avg.enc

/-- Byte 2, FRONT. -/
def frontByte (c : TaskConfig) : Byte :=
  c.policy.enc ++ (BitVec.ofFin c.settle : BitVec 4) ++ 0#1

/-- Byte 3, EVENTS. -/
def eventsByte (c : TaskConfig) : Byte :=
  BitVec.ofBool c.firstZone ++ BitVec.ofBool c.enAbove ++ BitVec.ofBool c.enInside ++ BitVec.ofBool c.enBelow
    ++ (BitVec.ofFin c.decim : BitVec 4)

/-- Byte 14, LINK: an absent link is 00h. -/
def linkByte (c : TaskConfig) : Byte :=
  match c.link with
  | none => 0x00#8
  | some t => 1#1 ++ 0#3 ++ (BitVec.ofFin t : BitVec 4)

/-- LOW, HIGH and HYST as the two-byte quantities of the image. -/
def limitWord (v : BitVec 15) : Word16 := 0#1 ++ v

/-- HYST as the two-byte quantity of the image. -/
def hystWord (v : BitVec 14) : Word16 := 0#2 ++ v

/-- Byte 15, STATE. -/
def stateByte (r : TaskRuntime) : Byte :=
  r.state.enc ++ r.zone.enc ++ r.gain.enc ++ BitVec.ofBool r.lastFired ++ BitVec.ofBool r.lastOver

/-- The 24 bytes of a task record: configuration bytes 0 to 14 (R12) and the snapshot 15 to 23 (R13). -/
def imageOf (t : Task) : Vector Byte 24 :=
  #v[modeByte t.cfg, inputByte t.cfg, frontByte t.cfg, eventsByte t.cfg,
     hiByte t.cfg.period, loByte t.cfg.period, hiByte t.cfg.phase, loByte t.cfg.phase,
     hiByte (limitWord t.cfg.low), loByte (limitWord t.cfg.low),
     hiByte (limitWord t.cfg.high), loByte (limitWord t.cfg.high),
     hiByte (hystWord t.cfg.hyst), loByte (hystWord t.cfg.hyst), linkByte t.cfg,
     stateByte t.rt, t.rt.missCount, 0#4 ++ t.rt.decCount,
     hiByte t.rt.countdown, loByte t.rt.countdown,
     hiByte (limitWord t.rt.lastN), loByte (limitWord t.rt.lastN),
     hiByte (0#4 ++ t.rt.lastCode), loByte (0#4 ++ t.rt.lastCode)]

/-- The link the LINK byte proposes: absent when bit 7 is 0, whatever the target bits hold (R12). -/
def linkOf (b : Byte) : Option Slot :=
  if b.getLsbD 7 then some (b.extractLsb' 0 4).toFin else none

/-- A must-be-0 bit of the image is 1, or a PERIODIC task has period 0 (R17, all its conditions but the two invalid
encodings). -/
def badBits (img : Vector Byte 24) : Bool :=
  img[2].getLsbD 0 || img[8].getLsbD 7 || img[10].getLsbD 7 || img[12].getLsbD 7 || img[12].getLsbD 6
    || (img[14].extractLsb' 4 3 != 0#3)
    || (img[0].extractLsb' 6 2 == 0#2 && joinBytes img[4] img[5] == 0#16)

/-- The configuration that Stage bytes 0 to 14 propose, or none when R17 finds a fault in a field (BAD_FIELD). -/
def configOf (img : Vector Byte 24) : Option TaskConfig :=
  match resolutionOf (img[1].extractLsb' 2 2), gainPolicyOf (img[2].extractLsb' 5 3) with
  | some res, some policy =>
    if badBits img then none
    else some
      { mode := startModeOf (img[0].extractLsb' 6 2)
        single := img[0].getLsbD 5
        stamp := img[0].getLsbD 4
        recMode := recordModeOf (img[0].extractLsb' 2 2)
        priority := (img[0].extractLsb' 0 2).toFin
        channel := (img[1].extractLsb' 4 4).toFin
        res := res
        avg := averagingOf (img[1].extractLsb' 0 2)
        policy := policy
        settle := (img[2].extractLsb' 1 4).toFin
        firstZone := img[3].getLsbD 7
        enAbove := img[3].getLsbD 6
        enInside := img[3].getLsbD 5
        enBelow := img[3].getLsbD 4
        decim := (img[3].extractLsb' 0 4).toFin
        period := joinBytes img[4] img[5]
        phase := joinBytes img[6] img[7]
        low := (joinBytes img[8] img[9]).extractLsb' 0 15
        high := (joinBytes img[10] img[11]).extractLsb' 0 15
        hyst := (joinBytes img[12] img[13]).extractLsb' 0 14
        link := linkOf img[14] }
  | _, _ => none

/-- The window check: LOW ≤ HIGH and 2·HYST ≤ HIGH − LOW, exactly (R18). -/
def windowOk (c : TaskConfig) : Bool :=
  decide (c.low.toNat ≤ c.high.toNat ∧ 2 * c.hyst.toNat ≤ c.high.toNat - c.low.toNat)

/-- The eight locked fields of two configurations agree by value (R5, R20). -/
def lockedEq (a b : TaskConfig) : Bool :=
  decide (a.mode = b.mode ∧ a.channel = b.channel ∧ a.res = b.res ∧ a.avg = b.avg ∧ a.policy = b.policy
    ∧ a.settle = b.settle ∧ a.period = b.period ∧ a.phase = b.phase)

/-! ### Records (R111, R113) -/

/-- The length of a RESULT record (R111). -/
def RecordBody.length (b : RecordBody) : Nat :=
  5 + (if b.stamp.isSome then 2 else 0) + (if b.miss.isSome then 1 else 0)

/-- Byte 0 of a RESULT record (R113). -/
def RecordBody.header (b : RecordBody) : Byte :=
  1#2 ++ BitVec.ofBool b.stamp.isSome ++ BitVec.ofBool b.miss.isSome ++ (BitVec.ofFin b.slot : BitVec 4)

/-- Byte 2 of a RESULT record (R113). -/
def RecordBody.flags (b : RecordBody) : Byte :=
  b.zone.enc ++ BitVec.ofBool b.evt ++ BitVec.ofBool b.overFlag ++ b.gain.enc ++ b.res.enc

/-- The stamp part, high byte first, when present (R113). -/
def stampBytes : Option Word16 → List Byte
  | none => []
  | some w => [hiByte w, loByte w]

/-- The miss part when present (R113). -/
def missBytes : Option Byte → List Byte
  | none => []
  | some m => [m]

/-- The bytes of a record, in the order RQDATA returns them (R113). -/
def QRecord.bytes : QRecord → List Byte
  | .result seq b =>
    [b.header, seq, b.flags, hiByte (0#4 ++ b.code), loByte (0#4 ++ b.code)] ++ stampBytes b.stamp ++ missBytes b.miss
  | .gap seq lost => [0x80#8, seq, lost]

/-- The length of a stored record: 5 to 8 bytes for a RESULT record, 3 for a GAP record (R111). -/
def QRecord.length : QRecord → Nat
  | .result _ b => b.length
  | .gap _ _ => 3

/-- The sequence number a stored record carries in byte 1 (R113). -/
def QRecord.seq : QRecord → Byte
  | .result seq _ => seq
  | .gap seq _ => seq

end Sys2Proof.Machine
end

