-- ==== Sys2Proof/Machine/Defaults.lean ====
section
/-! DEFINITION. The values the spec gives for reset, block by block. -/

namespace Sys2Proof.Machine

/-- The default configuration of slot n (R6). -/
def defaultConfig (n : Slot) : TaskConfig where
  mode := .host
  single := false
  stamp := false
  recMode := .always
  priority := 0
  channel := n
  res := .bits12
  avg := .x1
  policy := .fix1
  settle := 0
  firstZone := false
  enAbove := false
  enInside := false
  enBelow := false
  decim := 0
  period := 100#16
  phase := 0#16
  low := 0#15
  high := 32767#15
  hyst := 0#14
  link := none

/-- The default runtime part (R6). -/
def defaultRuntime : TaskRuntime where
  state := .stopped
  zone := .unknown
  gain := .x1
  lastFired := false
  lastOver := false
  missCount := 0#8
  decCount := 0#4
  countdown := 0#16
  lastN := 0#15
  lastCode := 0#12

/-- The Task Table after power-on reset (R6). -/
def defaultTable : TaskTable :=
  Vector.ofFn fun n => { cfg := defaultConfig n, rt := defaultRuntime }

/-- The Stage after power-on reset: the default image of slot 0, STOFS 0 (R8). -/
def defaultStage : Stage where
  image := #v[0x40#8, 0x08#8, 0x00#8, 0x00#8, 0x00#8, 0x64#8, 0x00#8, 0x00#8, 0x00#8, 0x00#8, 0x7F#8, 0xFF#8,
              0x00#8, 0x00#8, 0x00#8, 0x00#8, 0x00#8, 0x00#8, 0x00#8, 0x00#8, 0x00#8, 0x00#8, 0x00#8, 0x00#8]
  ofs := 0

/-- The Result Queue after power-on reset (R137). -/
def defaultQueue : ResultQueue where
  records := []
  readIndex := none
  nextSeq := 0#8
  pendingGap := 0#8
  lostcnt := 0#8
  policy := .dropNew
  watermark := 0#5

/-- All seven system latches at 0 (R148). -/
def noSysLatches : SysLatches where
  qready := false
  qover := false
  qunder := false
  miss := false
  abort := false
  halted := false
  cmderr := false

end Sys2Proof.Machine
end

