-- ==== Sys2Proof/Machine/State.lean ====
section
/-! DEFINITION. The whole state of the GS-16, its reset value, and the reasons a step can stop. -/

namespace Sys2Proof.Machine

/-- Every piece of state the spec gives the part (INVENTORY.md, State), and three fields of the model's own:
`dataOut`, `freeCount` and `pending`. -/
structure State where
  /-- the Task Table (R1 to R3) -/
  tasks : TaskTable
  /-- the Stage and STOFS (R8) -/
  stage : Stage
  /-- TICKDIV (R26) -/
  tickDiv : Word16
  /-- the divider value that fixes the tick period in progress (R25) -/
  tickPeriod : Word16
  /-- the Tick Counter (R27) -/
  tickCount : Word16
  /-- the TICKH holding register (R28) -/
  tickHold : Byte
  /-- TRIGCFG (R34) -/
  trigCfg : TrigSetting
  /-- the last recognised level of TRIG (R34) -/
  trigRef : Level
  /-- the Run Queue, head first (R38) -/
  runQueue : List RunEntry
  /-- the device run state (R48) -/
  runState : RunState
  /-- the conversion in progress; none while the Conversion Unit is IDLE (R55) -/
  conv : Option Conversion
  /-- the Result Queue (R116) -/
  rq : ResultQueue
  /-- the task latches, slot n in bit n (R139) -/
  taskLatch : Word16
  /-- the system latches (R139) -/
  sysLatch : SysLatches
  /-- TENH and TENL, the enable of slot n in bit n (R147) -/
  taskEnable : Word16
  /-- SEN, bit 7 included (R147) -/
  sysEnable : Byte
  /-- CMDST (R157) -/
  cmdst : ResultCode
  /-- CARG (R159) -/
  carg : Byte
  /-- the byte the part put on D7 to D0 in the latest bus cycle that reached it, a command of the queue or a `plainRead`;
  none when it left them released (R151, log entries 6 and 17) -/
  dataOut : Option Byte
  /-- CLK is running (R164) -/
  clkRunning : Bool
  /-- the accesses whose changes wait while CLK is stopped, in bus order (R164) -/
  waiting : List WaitingAccess
  /-- the part holds itself in reset since VCC was applied (R161) -/
  held : Bool
  /-- how many free values have been drawn (the model's own, log entry 10) -/
  freeCount : Nat
  /-- the commands that are waiting, first in first out (the model's own, log entry 1) -/
  pending : List Instr
  deriving DecidableEq, Repr

/-- The block has no fault: every access completes (R151) and a refused command is answered in CMDST (R158). No
constructor, so no step ends in a fault. -/
inductive Fault where
  deriving DecidableEq, Repr

/-- The reasons a step is refused. -/
inductive Refusal where
  /-- Raised by an arm of exec that has no meaning yet: no arm is left so. Safe: the model stops. -/
  | notModelled (mnemonic : String)
  /-- Raised by execBadCmd and execRegisterWrite on a term that is no command of the table: BAD_CMD with the code of a
  command, REGISTER_WRITE at a position another row owns (log entry 18). Safe: the model stops. -/
  | illFormed
  deriving DecidableEq, Repr

/-- The part just after RES# has risen (R161): R6, R8, R53, R74, R137, R148, R157, R159. The level of TRIG, CLK running
and `freeCount` are the model's choices (log entries 10 to 12). -/
def State.reset : State where
  tasks := defaultTable
  stage := defaultStage
  tickDiv := 0#16
  tickPeriod := 0#16
  tickCount := 0#16
  tickHold := 0#8
  trigCfg := .off
  trigRef := .low
  runQueue := []
  runState := .halted
  conv := none
  rq := defaultQueue
  taskLatch := 0#16
  sysLatch := noSysLatches
  taskEnable := 0#16
  sysEnable := 0#8
  cmdst := .ok
  carg := 0#8
  dataOut := none
  clkRunning := true
  waiting := []
  held := false
  freeCount := 0
  pending := []

end Sys2Proof.Machine
end

