-- ==== Sys2Proof/Machine/Ops.lean ====
section
/-! DEFINITION. The named updates of the state, the slot argument and the answer of a command (R156 to R158), and how a
bus access and an event of the part are taken (R151, R161, R164). -/

namespace Sys2Proof.Machine

/-! ### Named updates -/

/-- The record of slot n. -/
def State.task (s : State) (n : Slot) : Task := s.tasks[n]

/-- Replace the record of slot n. -/
def State.setTask (s : State) (n : Slot) (t : Task) : State := { s with tasks := s.tasks.set n t }

/-- Change the runtime part of slot n. -/
def State.modRuntime (s : State) (n : Slot) (f : TaskRuntime → TaskRuntime) : State :=
  s.setTask n { cfg := (s.task n).cfg, rt := f (s.task n).rt }

/-- Set the task state of slot n. -/
def State.setTaskState (s : State) (n : Slot) (st : TaskState) : State :=
  s.modRuntime n fun r => { r with state := st }

/-- Replace the Stage. -/
def State.setStage (s : State) (x : Stage) : State := { s with stage := x }

/-- Replace the Run Queue. -/
def State.setRunQueue (s : State) (q : List RunEntry) : State := { s with runQueue := q }

/-- Set the run state. -/
def State.setRunState (s : State) (r : RunState) : State := { s with runState := r }

/-- Replace the Conversion Unit's conversion. -/
def State.setConv (s : State) (c : Option Conversion) : State := { s with conv := c }

/-- Replace the Result Queue. -/
def State.setQueue (s : State) (q : ResultQueue) : State := { s with rq := q }

/-- Change the system latches. -/
def State.setSysLatch (s : State) (l : SysLatches) : State := { s with sysLatch := l }

/-- Replace the task latches. -/
def State.setTaskLatch (s : State) (l : Word16) : State := { s with taskLatch := l }

/-- Set CMDST. -/
def State.setCmdst (s : State) (r : ResultCode) : State := { s with cmdst := r }

/-- What the part drives on D7 to D0 in this bus cycle. -/
def State.setDataOut (s : State) (b : Option Byte) : State := { s with dataOut := b }

/-- Replace the waiting accesses. -/
def State.setWaiting (s : State) (w : List WaitingAccess) : State := { s with waiting := w }

/-- One more than an 8-bit count, saturating at 255 (R32, R121, R124). -/
def satInc (b : Byte) : Byte := if b = 255#8 then b else b + 1#8

/-- An 8-bit count raised k times, saturating at 255 (R122, R124). -/
def satAdd (b : Byte) (k : Nat) : Byte := BitVec.ofNat 8 (min 255 (b.toNat + k))

/-! ### The command port (R156 to R158) -/

/-- The slot CARG names, none when it holds 16 to 255 (R156). -/
def slotArg (s : State) : Option Slot :=
  if h : s.carg.toNat < 16 then some ⟨s.carg.toNat, h⟩ else none

/-- An accepted command leaves OK in CMDST (R157). -/
def acceptCmd (s : State) : State := s.setCmdst .ok

/-- A refused command leaves its code in CMDST and sets CMDERR, and changes nothing else (R158). -/
def refuseCmd (code : ResultCode) (s : State) : State :=
  (s.setCmdst code).setSysLatch { s.sysLatch with cmderr := true }

/-- A slot command: refused with BAD_SLOT before any other check when CARG holds 16 to 255 (R156). -/
def onSlot (f : Slot → State → State) (s : State) : State :=
  match slotArg s with
  | none => refuseCmd .badSlot s
  | some n => f n s

/-! ### How an access or an event is taken -/

/-- A write access: not taken while the part is held in reset (R161); its change waits while CLK is stopped (R164); the
part does not drive D7 to D0 during a write (R151). `c` is the command that stands for the access. -/
def takeWrite (c : Instr) (effect : State → State) (s : State) : State :=
  if s.held then s.setDataOut none
  else if s.clkRunning then effect (s.setDataOut none)
  else (s.setDataOut none).setWaiting (s.waiting ++ [{ access := c, returned := 0#8 }])

/-- A read access: returns nothing while the part is held in reset (R161); otherwise it returns the register's value as
it stands, and its change is made in the same step (R151, R154), or waits while CLK is stopped (R164). -/
def takeRead (c : Instr) (value : State → Byte) (effect : Byte → State → State) (s : State) : State :=
  if s.held then s.setDataOut none
  else if s.clkRunning then effect (value s) (s.setDataOut (some (value s)))
  else (s.setDataOut (some (value s))).setWaiting (s.waiting ++ [{ access := c, returned := value s }])

/-- An event of the part or an edge on TRIG: taken only while the part is not held in reset (R161) and CLK runs (R164). -/
def takeEvent (effect : State → State) (s : State) : State :=
  if s.held then s else if s.clkRunning then effect s else s

end Sys2Proof.Machine
end

