-- ==== Sys2Proof/Machine/Flags.lean ====
section
/-! DEFINITION. The latches, their clearing reads, TSUM and IRQ# (R139 to R147), and the status views (R162, R163). -/

namespace Sys2Proof.Machine

/-- SLAT bits 0 to 6 (R139). -/
def SysLatches.bits (l : SysLatches) : BitVec 7 :=
  BitVec.ofBool l.cmderr ++ BitVec.ofBool l.halted ++ BitVec.ofBool l.abort ++ BitVec.ofBool l.miss
    ++ BitVec.ofBool l.qunder ++ BitVec.ofBool l.qover ++ BitVec.ofBool l.qready

/-- The latches left when those returned as 1 in the byte b are cleared (R144). -/
def SysLatches.clear (l : SysLatches) (b : Byte) : SysLatches where
  qready := l.qready && !b.getLsbD 0
  qover := l.qover && !b.getLsbD 1
  qunder := l.qunder && !b.getLsbD 2
  miss := l.miss && !b.getLsbD 3
  abort := l.abort && !b.getLsbD 4
  halted := l.halted && !b.getLsbD 5
  cmderr := l.cmderr && !b.getLsbD 6

/-- The task latch of slot n alone, as a word. -/
def latchBit (n : Slot) : Word16 := BitVec.twoPow 16 n.val

/-- Set the task latch of slot n (R96, R140). -/
def setTaskLatchOf (n : Slot) (s : State) : State := s.setTaskLatch (s.taskLatch ||| latchBit n)

/-- Set the QREADY latch (R126). -/
def setQready (s : State) : State := s.setSysLatch { s.sysLatch with qready := true }

/-- Set the QOVER latch (R125). -/
def setQover (s : State) : State := s.setSysLatch { s.sysLatch with qover := true }

/-- Set the QUNDER latch (R130). -/
def setQunder (s : State) : State := s.setSysLatch { s.sysLatch with qunder := true }

/-- Set the MISS latch (R32). -/
def setMiss (s : State) : State := s.setSysLatch { s.sysLatch with miss := true }

/-- Set the ABORT latch (R45, R70). -/
def setAbort (s : State) : State := s.setSysLatch { s.sysLatch with abort := true }

/-- Set the HALTED latch (R49, R50). -/
def setHalted (s : State) : State := s.setSysLatch { s.sysLatch with halted := true }

/-- TSUM: some task latch is 1; the enables play no part (R143). -/
def tsum (s : State) : Bool := s.taskLatch != 0#16

/-- What a read of SLAT returns: TSUM in bit 7, the system latches in bits 6 to 0 (R143, R144). -/
def slatByte (s : State) : Byte := BitVec.ofBool (tsum s) ++ s.sysLatch.bits

/-- What a read of TLATL or TLATH returns (R144). -/
def taskLatchByte : LatchHalf → State → Byte
  | .tlatl, s => loByte s.taskLatch
  | .tlath, s => hiByte s.taskLatch

/-- The byte a latch register returned, placed at the slots it stands for (R144). -/
def latchMask : LatchHalf → Byte → Word16
  | .tlatl, b => 0#8 ++ b
  | .tlath, b => b ++ 0#8

/-- The part pulls IRQ# low exactly when some task latch, or system latch 0 to 6, is 1 together with its enable (R146);
the line is released while the part is held in reset (R161). -/
def irqLow (s : State) : Bool :=
  !s.held && ((s.taskLatch &&& s.taskEnable != 0#16) || (s.sysLatch.bits &&& s.sysEnable.extractLsb' 0 7 != 0#7))

/-! ### Counts and views of the Result Queue (R116, R117) -/

/-- The sum of the lengths of the records. -/
def bytesOf : List QRecord → Nat
  | [] => 0
  | r :: rs => r.length + bytesOf rs

/-- RQBYTES (R117). -/
def ResultQueue.rqbytes (q : ResultQueue) : Nat := bytesOf q.records

/-- RQRECS (R117). -/
def ResultQueue.rqrecs (q : ResultQueue) : Nat := q.records.length

/-- RQCFG: the policy in bit 7, bits 6-5 zero, the watermark in bits 4-0 (R135). -/
def rqcfgByte (q : ResultQueue) : Byte :=
  BitVec.ofBool (q.policy == .overwrite) ++ 0#2 ++ q.watermark

/-- What a read of RQDATA returns: the byte of the open record at the read index (R129), the header of the oldest record
(R128), or FFh when no record is open and none is stored (R130). -/
def rqdataByte (q : ResultQueue) : Byte :=
  match q.records with
  | [] => 0xFF#8
  | r :: _ => r.bytes.getD (q.readIndex.getD 0) 0xFF#8

/-! ### Views of the Scheduler and the Conversion Unit (R55, R162, R163) -/

/-- The unit state of R55. -/
def unitState (s : State) : UnitState :=
  match s.conv with
  | none => .idle
  | some c =>
    match c.phase with
    | .settling => .settling
    | .ranging => .ranging
    | .sampling => .sampling

/-- CURTASK: the current task's slot, FFh while the unit is IDLE (R57, R163). -/
def curtask (s : State) : Byte :=
  match s.conv with
  | none => 0xFF#8
  | some c => BitVec.ofNat 8 c.slot.val

/-- The input the multiplexer selects; none while no conversion is in progress (R57, R58, R74). -/
def muxSelection (s : State) : Option (Fin 16) := s.conv.map fun c => c.params.channel

/-- The gain the gain stage applies; none while no conversion is in progress (R57, R60, R74). -/
def gainStage (s : State) : Option Gain := s.conv.map fun c => c.workingGain

/-- DSTAT (R162). -/
def dstat (s : State) : Byte :=
  s.runState.enc ++ BitVec.ofBool s.conv.isSome ++ BitVec.ofBool s.rq.readIndex.isSome
    ++ BitVec.ofBool s.rq.records.isEmpty ++ BitVec.ofBool (s.rq.pendingGap != 0#8) ++ 0#2

/-- The value of the register at position `a` as the state stands (R152, R153): the register map, and 00h at an unmapped
position. It is the value itself, the part held or not; what a read drives on D7 to D0 is `busByte`. -/
def readRegister (a : Addr) (s : State) : Byte :=
  match a.toNat with
  | 0x00 => s.cmdst.byte
  | 0x01 => s.carg
  | 0x02 => dstat s
  | 0x03 => curtask s
  | 0x04 => BitVec.ofNat 8 s.runQueue.length
  | 0x05 => BitVec.ofNat 8 s.stage.ofs.val
  | 0x06 => s.stage.image[s.stage.ofs]
  | 0x07 => rqdataByte s.rq
  | 0x08 => BitVec.ofNat 8 s.rq.rqbytes
  | 0x09 => BitVec.ofNat 8 s.rq.rqrecs
  | 0x0A => rqcfgByte s.rq
  | 0x0B => s.rq.lostcnt
  | 0x0C => taskLatchByte .tlatl s
  | 0x0D => taskLatchByte .tlath s
  | 0x0E => slatByte s
  | 0x0F => loByte s.taskEnable
  | 0x10 => hiByte s.taskEnable
  | 0x11 => s.sysEnable
  | 0x12 => loByte s.tickDiv
  | 0x13 => hiByte s.tickDiv
  | 0x14 => loByte s.tickCount
  | 0x15 => s.tickHold
  | 0x16 => 0#6 ++ s.trigCfg.enc
  | _ => 0x00#8

end Sys2Proof.Machine
end

