-- ==== Sys2Proof/Machine/Scheduler.lean ====
section
/-! DEFINITION. The Scheduler's shared operations: Run Queue placement, due causes, misses, the tick expiry, edges on
TRIG, the end of a halt (R25 to R43, R50). -/

namespace Sys2Proof.Machine

/-! ### The Run Queue -/

/-- Place a normal entry behind every entry of its rank or higher and ahead of every entry of lower rank (R39). -/
def placeNormal (e : RunEntry) : List RunEntry → List RunEntry
  | [] => [e]
  | x :: xs => if e.rank ≤ x.rank then x :: placeNormal e xs else e :: x :: xs

/-- Place an entry of slot n with the given priority: a chained entry goes to the head with rank 4 (R40), a normal entry
by its priority (R39). -/
def placeEntry (kind : EntryKind) (n : Slot) (prio : Fin 4) (q : List RunEntry) : List RunEntry :=
  match kind with
  | .normal => placeNormal { slot := n, rank := prio.castSucc } q
  | .chained => { slot := n, rank := 4 } :: q

/-- Remove the entry of slot n, keeping the order of the rest (R41). -/
def removeEntry (n : Slot) (q : List RunEntry) : List RunEntry := q.filter fun e => e.slot != n

/-- Enter an ARMED task: the entry is made and the task becomes QUEUED in the same step (R31, R38). -/
def enterTask (kind : EntryKind) (n : Slot) (s : State) : State :=
  (s.setTaskState n .queued).setRunQueue (placeEntry kind n (s.task n).cfg.priority s.runQueue)

/-- A miss: the task's miss count rises by one, saturating, and the MISS latch is set (R32). -/
def missTask (n : Slot) (s : State) : State :=
  setMiss (s.modRuntime n fun r => { r with missCount := satInc r.missCount })

/-- A cause makes slot n due and is answered by the task's state (R31). -/
def makeDue (kind : EntryKind) (n : Slot) (s : State) : State :=
  match (s.task n).rt.state with
  | .armed => enterTask kind n s
  | .queued => missTask n s
  | .converting => missTask n s
  | .stopped => s

/-- TRIGGER enters a CHAINED task as a chained entry and any other as a normal entry (R31, R33). -/
def triggerKind (c : TaskConfig) : EntryKind := if c.mode = .chained then .chained else .normal

/-! ### The Tick Timer (R25, R27, R29, R30, R37) -/

/-- The countdown of slot n moves at an expiry taken while RUNNING: PERIODIC and not STOPPED (R29). -/
def countdownActive (t : Task) : Bool := t.cfg.mode == .periodic && t.rt.state != .stopped

/-- One slot's part of an expiry: its countdown is reduced by one; at 0 it is reloaded with the period and the task is
made due (R29). -/
def countdownStep (s : State) (n : Slot) : State :=
  let t := s.task n
  if countdownActive t then
    if t.rt.countdown - 1#16 = 0#16 then
      makeDue .normal n (s.modRuntime n fun r => { r with countdown := t.cfg.period })
    else s.modRuntime n fun r => { r with countdown := r.countdown - 1#16 }
  else s

/-- The countdowns' part of an expiry, in ascending order of slot number (R29, R37). -/
def moveCountdowns (s : State) : State := allSlots.foldl countdownStep s

/-- One expiry of the Tick Timer, whole: the next period takes its length from TICKDIV (R25), the Tick Counter rises by
one (R27), and while RUNNING the countdowns move (R29, R30). -/
def tickExpiry (s : State) : State :=
  let s1 := { s with tickPeriod := s.tickDiv, tickCount := s.tickCount + 1#16 }
  if s.runState = .running then moveCountdowns s1 else s1

/-! ### The TRIG input (R34, R35, R37) -/

/-- The level other than the given one. -/
def otherLevel : Level → Level
  | .low => .high
  | .high => .low

/-- Whether an edge to the given level qualifies under a TRIGCFG setting (R34). -/
def edgeQualifies : TrigSetting → Level → Bool
  | .off, _ => false
  | .rise, l => l == .high
  | .fall, l => l == .low
  | .both, _ => true

/-- One slot's part of a qualifying edge: an EXTERNAL task is made due (R35). -/
def edgeStep (s : State) (n : Slot) : State :=
  if (s.task n).cfg.mode = .external then makeDue .normal n s else s

/-- A recognised edge: the reference takes the new level, and if the edge qualifies every EXTERNAL task is made due in
ascending slot order (R34, R35, R37). -/
def recognisedEdge (s : State) : State :=
  let new := otherLevel s.trigRef
  let s1 := { s with trigRef := new }
  if edgeQualifies s.trigCfg new then allSlots.foldl edgeStep s1 else s1

/-! ### The end of a halt (R50) -/

/-- The end of a conversion ends a halt in progress: HALTED, with the HALTED latch set (R50). -/
def endHalt (s : State) : State :=
  if s.runState = .halting then setHalted (s.setRunState .halted) else s

end Sys2Proof.Machine
end

