-- ==== Sys2Proof/Machine/Conversion.lean ====
section
/-! DEFINITION. The Conversion Unit: the take, settling, ranging, sampling, the AUTO gain decision and the result
(R55 to R65, R75 to R81). -/

namespace Sys2Proof.Machine

/-- The five fields the unit copies at the take (R56). -/
def paramsOf (c : TaskConfig) : ConvParams where
  channel := c.channel
  res := c.res
  avg := c.avg
  policy := c.policy
  settle := c.settle

/-- The unit's state straight after taking slot n whose record is t (R57): a fixed policy names the working gain, AUTO
starts from the stored current gain. -/
def startConversion (n : Slot) (t : Task) : Conversion where
  phase := .settling
  slot := n
  params := paramsOf t.cfg
  workingGain := t.cfg.policy.fixedGain.getD t.rt.gain
  coarse := none
  samples := 0
  sum := 0
  overSeen := false

/-- The take: while IDLE and RUNNING the head entry leaves the Run Queue and its task becomes CONVERTING (R42, R57).
When a condition fails there is no take. -/
def takeHead (s : State) : State :=
  match s.conv, s.runState, s.runQueue with
  | none, .running, e :: rest =>
    ((s.setTaskState e.slot .converting).setRunQueue rest).setConv (some (startConversion e.slot (s.task e.slot)))
  | _, _, _ => s

/-- The settling allowance ends: RANGING under AUTO, SAMPLING under a fixed policy (R58). -/
def endSettling (s : State) : State :=
  match s.conv with
  | some c =>
    if c.phase = .settling then
      s.setConv (some { c with phase := if c.params.policy = .auto then .ranging else .sampling })
    else s
  | none => s

/-! ### The AUTO gain decision (R76 to R78) -/

/-- The gains from the largest down. -/
def gainsDescending : List Gain := [.x8, .x4, .x2, .x1]

/-- Step down: the largest gain below g whose product with c is 55 or less, ×1 when there is none (R77). -/
def stepDownGain (c : BitVec 6) (g : Gain) : Gain :=
  (gainsDescending.find? fun x => decide (x.factor < g.factor ∧ c.toNat * x.factor ≤ 55)).getD .x1

/-- Step up or stay: the largest gain above g whose product with c is 39 or less, g when there is none (R78). -/
def stepUpGain (c : BitVec 6) (g : Gain) : Gain :=
  (gainsDescending.find? fun x => decide (g.factor < x.factor ∧ c.toNat * x.factor ≤ 39)).getD g

/-- The AUTO gain decision from the coarse value and the stored gain (R76). -/
def autoGain (c : BitVec 6) (g : Gain) : Gain :=
  if 55 < c.toNat * g.factor then stepDownGain c g else stepUpGain c g

/-- The coarse conversion ends: the decided gain becomes the working gain and the unit enters SAMPLING (R60). -/
def endRanging (value : BitVec 6) (s : State) : State :=
  match s.conv with
  | some c =>
    if c.phase = .ranging then
      s.setConv (some { c with phase := .sampling, coarse := some value, workingGain := autoGain value c.workingGain })
    else s
  | none => s

/-! ### Sampling (R61 to R65) -/

/-- The code of a sample: full scale when it overscaled (R62), otherwise the converter's code, which is at most full
scale at the copied resolution (R61, log entry 13). -/
def sampleCode (r : Resolution) (code : BitVec 12) (overscaled : Bool) : Nat :=
  if overscaled then r.fullScale else min code.toNat r.fullScale

/-- A sample is taken: its code joins the sum, samples taken rises by one, an overscale is remembered (R61, R62). -/
def addSample (c : Conversion) (code : BitVec 12) (overscaled : Bool) : Conversion :=
  { c with
    samples := c.samples + 1
    sum := c.sum + sampleCode c.params.res code overscaled
    overSeen := c.overSeen || overscaled }

/-- The next sample of this conversion is not the A-th. -/
def moreAfterNext (c : Conversion) : Bool := c.phase == .sampling && decide (c.samples + 1 < c.params.avg.count)

/-- The next sample of this conversion is the A-th. -/
def nextCompletes (c : Conversion) : Bool := c.phase == .sampling && decide (c.samples + 1 = c.params.avg.count)

/-- A sample that is not the A-th is taken (R61). -/
def takeSample (code : BitVec 12) (overscaled : Bool) (s : State) : State :=
  match s.conv with
  | some c => if moreAfterNext c then s.setConv (some (addSample c code overscaled)) else s
  | none => s

/-- The result formed at completion: the sample sum divided by A, remainder discarded (R63, R64, R65). -/
def formResult (c : Conversion) : ConvResult where
  slot := c.slot
  code := BitVec.ofNat 12 (c.sum / c.params.avg.count)
  gain := c.workingGain
  res := c.params.res
  overFlag := c.overSeen

/-- The Conversion Unit's part of a delivery: the stored current gain takes the gain used and the unit returns to IDLE
(R66, R67). -/
def conversionPart (r : ConvResult) (s : State) : State :=
  (s.modRuntime r.slot fun x => { x with gain := r.gain }).setConv none

/-- A STOP of the converting task abandons its conversion: the unit returns to IDLE, the ABORT latch is set, and a halt
in progress ends (R45, R50, R70). -/
def abandonConversion (s : State) : State := endHalt (setAbort (s.setConv none))

end Sys2Proof.Machine
end

