-- ==== Sys2Proof/Machine/Window.lean ====
section
/-! DEFINITION. The normalised value and the Window Monitor (R82 to R102). -/

namespace Sys2Proof.Machine

/-- The multiplier of a resolution and a gain, 2^(12 − res) · (8 / gain) (R82). -/
def multiplier (r : Resolution) (g : Gain) : Nat := 2 ^ (12 - r.width) * (8 / g.factor)

/-- The normalised value N of a code (R82). -/
def normalise (code : BitVec 12) (r : Resolution) (g : Gain) : Nat := code.toNat * multiplier r g

/-- The zone a value N gives against the limits alone (R88, R89). -/
def zoneByLimits (c : TaskConfig) (n : Nat) : Zone :=
  if c.high.toNat < n then .above else if n < c.low.toNat then .below else .inside

/-- The zone from ABOVE: back INSIDE only at HIGH − HYST or lower (R90). -/
def zoneFromAbove (c : TaskConfig) (n : Nat) : Zone :=
  if n < c.low.toNat then .below else if n ≤ c.high.toNat - c.hyst.toNat then .inside else .above

/-- The zone from BELOW: back INSIDE only at LOW + HYST or higher (R91). -/
def zoneFromBelow (c : TaskConfig) (n : Nat) : Zone :=
  if c.high.toNat < n then .above else if c.low.toNat + c.hyst.toNat ≤ n then .inside else .below

/-- Zone evaluation: OVER forces ABOVE (R92), otherwise by the stored zone (R88 to R91). -/
def evaluateZone (c : TaskConfig) (stored : Zone) (n : Nat) (overFlag : Bool) : Zone :=
  if overFlag then .above
  else match stored with
    | .unknown => zoneByLimits c n
    | .inside => zoneByLimits c n
    | .above => zoneFromAbove c n
    | .below => zoneFromBelow c n

/-- The enable of an entry into the given zone (R94). -/
def entryEnable (c : TaskConfig) : Zone → Bool
  | .unknown => false
  | .below => c.enBelow
  | .inside => c.enInside
  | .above => c.enAbove

/-- Whether a result fires: it is an entry, the kind's enable is 1, and from UNKNOWN the first-zone bit is 1
(R93, R94). -/
def entryFires (c : TaskConfig) (stored new : Zone) : Bool :=
  stored != new && entryEnable c new && (stored != .unknown || c.firstZone)

/-- What the Window Monitor makes of a result, from the task record as it stands at the delivery (R87, R97). -/
def windowOutcome (t : Task) (r : ConvResult) : WindowOutcome :=
  let zone := evaluateZone t.cfg t.rt.zone (normalise r.code r.res r.gain) r.overFlag
  { slot := r.slot
    zone := zone
    fired := entryFires t.cfg t.rt.zone zone
    code := r.code
    gain := r.gain
    res := r.res
    overFlag := r.overFlag }

/-- The fields the Window Monitor stores at every delivered result (R95). -/
def storeOutcome (o : WindowOutcome) (x : TaskRuntime) : TaskRuntime :=
  { x with
    zone := o.zone
    lastN := BitVec.ofNat 15 (normalise o.code o.res o.gain)
    lastCode := o.code
    lastOver := o.overFlag
    lastFired := o.fired }

/-- The Window Monitor's part of a delivery: the zone and the last fields are stored (R95), and a fired entry sets the
task's latch (R96). -/
def windowPart (o : WindowOutcome) (s : State) : State :=
  let s1 := s.modRuntime o.slot (storeOutcome o)
  if o.fired then setTaskLatchOf o.slot s1 else s1

end Sys2Proof.Machine
end

