-- ==== Sys2Proof/Machine/ResultQueue.lean ====
section
/-! DEFINITION. The Record Builder and the Result Queue: record decision and composition (R103 to R112), insertion,
eviction and drop (R119 to R126), and the removals (R127 to R133). -/

namespace Sys2Proof.Machine

/-! ### Record Builder -/

/-- Whether the record mode keeps an outcome; under EVERY_N when the raised count reaches N (R104, R105). -/
def keepsRecord (t : Task) (fired : Bool) : Bool :=
  match t.cfg.recMode with
  | .always => true
  | .onEvent => fired
  | .everyN => t.rt.decCount.toNat + 1 == t.cfg.decimation
  | .none => false

/-- The decimation count after an outcome: raised under EVERY_N and 0 when it reaches N, otherwise unchanged
(R104, R105). -/
def nextDecCount (t : Task) : BitVec 4 :=
  match t.cfg.recMode with
  | .everyN => if t.rt.decCount.toNat + 1 = t.cfg.decimation then 0#4 else t.rt.decCount + 1#4
  | .always => t.rt.decCount
  | .onEvent => t.rt.decCount
  | .none => t.rt.decCount

/-- The RESULT record composed from an outcome, the stamp field, the Tick Counter and the miss count (R107 to R109). -/
def composeRecord (t : Task) (tick : Word16) (o : WindowOutcome) : RecordBody where
  slot := o.slot
  zone := o.zone
  evt := o.fired
  overFlag := o.overFlag
  gain := o.gain
  res := o.res
  code := o.code
  stamp := if t.cfg.stamp then some tick else none
  miss := if t.rt.missCount = 0#8 then none else some t.rt.missCount

/-! ### Insertion -/

/-- The free space, 128 − RQBYTES (R116). -/
def ResultQueue.free (q : ResultQueue) : Nat := 128 - q.rqbytes

/-- The space an offered record needs: its length, plus 3 when a gap is pending (R119). -/
def neededSpace (q : ResultQueue) (b : RecordBody) : Nat :=
  b.length + if q.pendingGap = 0#8 then 0 else 3

/-- The course of an insertion (R119). -/
def courseOf (q : ResultQueue) (b : RecordBody) : Course :=
  if neededSpace q b ≤ q.free then .store
  else match q.policy, q.readIndex with
    | .overwrite, none => .evict
    | .overwrite, some _ => .drop
    | .dropNew, _ => .drop

/-- Append the offered record, with a GAP record ahead of it when a gap is pending (R120, R123). -/
def storeRecord (b : RecordBody) (q : ResultQueue) : ResultQueue :=
  if q.pendingGap = 0#8 then
    { q with records := q.records ++ [.result q.nextSeq b], nextSeq := q.nextSeq + 1#8 }
  else
    { q with
      records := q.records ++ [.gap q.nextSeq q.pendingGap, .result (q.nextSeq + 1#8) b]
      nextSeq := q.nextSeq + 2#8
      pendingGap := 0#8 }

/-- Drop the offered record: the pending gap count and LOSTCNT rise by one, saturating (R121). -/
def dropRecord (q : ResultQueue) : ResultQueue :=
  { q with pendingGap := satInc q.pendingGap, lostcnt := satInc q.lostcnt }

/-- Evict whole records from the oldest end until the free space is at least `need`, and no more (R122). -/
def evictUntil (need : Nat) : List QRecord → List QRecord
  | [] => []
  | r :: rs => if need ≤ 128 - bytesOf (r :: rs) then r :: rs else evictUntil need rs

/-- The evictions of an insertion: LOSTCNT rises by the number of records evicted, saturating (R122). -/
def evictRecords (need : Nat) (q : ResultQueue) : ResultQueue :=
  { q with
    records := evictUntil need q.records
    lostcnt := satAdd q.lostcnt (q.records.length - (evictUntil need q.records).length) }

/-- The queue after an insertion (R119 to R122). -/
def insertRecord (b : RecordBody) (q : ResultQueue) : ResultQueue :=
  match courseOf q b with
  | .store => storeRecord b q
  | .evict => storeRecord b (evictRecords (neededSpace q b) q)
  | .drop => dropRecord q

/-- An insertion raises RQRECS from below a non-zero watermark to at or above it (R126). -/
def reachesWatermark (before after : ResultQueue) : Bool :=
  before.watermark != 0#5 && decide (before.rqrecs < before.watermark.toNat)
    && decide (before.watermark.toNat ≤ after.rqrecs)

/-- An insertion, whole: the queue, the QOVER latch when a record is lost (R125), the QREADY latch when the watermark is
reached (R126). -/
def offerRecord (b : RecordBody) (s : State) : State :=
  let q := insertRecord b s.rq
  let s1 := s.setQueue q
  let s2 := if courseOf s.rq b = .store then s1 else setQover s1
  if reachesWatermark s.rq q then setQready s2 else s2

/-- The Record Builder's part of a delivery: the decision with the decimation count, and for a kept record its
composition, the miss count set to 0, and the offer (R103). -/
def recordPart (o : WindowOutcome) (s : State) : State :=
  let t := s.task o.slot
  let s1 := s.modRuntime o.slot fun x => { x with decCount := nextDecCount t }
  if keepsRecord t o.fired then
    offerRecord (composeRecord t s.tickCount o) (s1.modRuntime o.slot fun x => { x with missCount := 0#8 })
  else s1

/-! ### Reading and removing -/

/-- Remove the oldest record; no record is open then (R129, R132). -/
def removeOldest (q : ResultQueue) : ResultQueue :=
  { q with records := q.records.drop 1, readIndex := none }

/-- The change a read of RQDATA makes to the queue: it opens the oldest record (R128), or passes to the next byte of the
open record and retires it at its last byte (R129). -/
def advanceRead (q : ResultQueue) : ResultQueue :=
  match q.records with
  | [] => q
  | r :: _ =>
    match q.readIndex with
    | none => { q with readIndex := some 1 }
    | some i => if i + 1 < r.length then { q with readIndex := some (i + 1) } else removeOldest q

/-- FLUSH of the queue: no record, none open, no pending gap; numbering, LOSTCNT, policy and watermark kept (R133). -/
def flushQueue (q : ResultQueue) : ResultQueue :=
  { q with records := [], readIndex := none, pendingGap := 0#8 }

/-- The RESET command's part: as power-on reset, with RQCFG kept (R138). -/
def resetQueue (q : ResultQueue) : ResultQueue :=
  { defaultQueue with policy := q.policy, watermark := q.watermark }

end Sys2Proof.Machine
end

