-- ==== Sys2Proof/Machine/Delivery.lean ====
section
/-! DEFINITION. The delivery of a result: one event in which every block takes its part (R46, R66). -/

namespace Sys2Proof.Machine

/-- The Scheduler's first step of a delivery: STOPPED when single is 1, ARMED otherwise (R46). -/
def leaveConverting (n : Slot) (s : State) : State :=
  s.setTaskState n (if (s.task n).cfg.single then .stopped else .armed)

/-- The link of slot n makes its target due as a chained entry (R36). -/
def followLink (n : Slot) (s : State) : State :=
  match (s.task n).cfg.link with
  | none => s
  | some t => makeDue .chained t s

/-- The Scheduler's part of a delivery, in the order of R46: the task leaves CONVERTING, the link acts, a halt in
progress ends. -/
def schedulerPart (n : Slot) (s : State) : State :=
  endHalt (followLink n (leaveConverting n s))

/-- The delivery of a result, whole: Window Monitor, Record Builder with the insertion, Conversion Unit, Scheduler
(R66, R103). -/
def deliverResult (r : ConvResult) (s : State) : State :=
  let o := windowOutcome (s.task r.slot) r
  schedulerPart r.slot (conversionPart r (recordPart o (windowPart o s)))

/-- The A-th sample is taken: the conversion completes and its result is delivered (R61, R65, R66). -/
def completeConversion (code : BitVec 12) (overscaled : Bool) (s : State) : State :=
  match s.conv with
  | some c => if nextCompletes c then deliverResult (formResult (addSample c code overscaled)) s else s
  | none => s

end Sys2Proof.Machine
end

