-- ==== Sys2Proof/Machine/DeviceCommands.lean ====
section
/-! DEFINITION. The commands without a slot: HALT, RESUME, FLUSH, DISCARD, RESET, and the refusal of a code that is no
command. -/

namespace Sys2Proof.Machine

/-- The effect of HALT on the run state (R49). -/
def haltRun (s : State) : State :=
  if s.runState = .running then
    if s.conv.isSome then s.setRunState .halting else setHalted (s.setRunState .halted)
  else s

/-- The effect of HALT: OK in every case (R49). -/
def haltEffect (s : State) : State := acceptCmd (haltRun s)

/-- HALT. -/
def execHalt (s : State) : Host.Outcome State Fault Refusal :=
  .next (takeWrite .halt haltEffect s)

/-- The effect of RESUME: RUNNING from every run state, OK in every case (R51). The take that may follow is the event
TAKE (log entry 5). -/
def resumeEffect (s : State) : State := acceptCmd (s.setRunState .running)

/-- RESUME. -/
def execResume (s : State) : Host.Outcome State Fault Refusal :=
  .next (takeWrite .resume resumeEffect s)

/-- The effect of FLUSH (R133). -/
def flushEffect (s : State) : State := acceptCmd (s.setQueue (flushQueue s.rq))

/-- FLUSH. -/
def execFlush (s : State) : Host.Outcome State Fault Refusal :=
  .next (takeWrite .flush flushEffect s)

/-- The effect of DISCARD: the oldest (or open) record goes, or EMPTY (R132). -/
def discardEffect (s : State) : State :=
  if s.rq.records.isEmpty then refuseCmd .empty s else acceptCmd (s.setQueue (removeOldest s.rq))

/-- DISCARD. -/
def execDiscard (s : State) : Host.Outcome State Fault Refusal :=
  .next (takeWrite .discard discardEffect s)

/-- Every task's runtime part at its defaults, every configuration kept (R7). -/
def resetRuntimes (tasks : TaskTable) : TaskTable :=
  Vector.ofFn fun n : Slot => { cfg := tasks[n].cfg, rt := defaultRuntime }

/-- The effect of RESET on every block, in one event (R160: R7, R8, R54, R72, R138, R149, R157). `trig` is the level on
TRIG, which the edge detector takes as its reference (R34). -/
def resetEffect (trig : Level) (s : State) : State :=
  { s with
    tasks := resetRuntimes s.tasks
    stage := { s.stage with ofs := 0 }
    tickPeriod := s.tickDiv
    tickCount := 0#16
    tickHold := 0#8
    trigRef := trig
    runQueue := []
    runState := .halted
    conv := none
    rq := resetQueue s.rq
    taskLatch := 0#16
    sysLatch := noSysLatches
    cmdst := .ok }

/-- RESET. -/
def execReset (trig : Level) (s : State) : Host.Outcome State Fault Refusal :=
  .next (takeWrite (.reset trig) (resetEffect trig) s)

/-- The effect of a code that is no command: BAD_CMD, and no block is acted on (R156). -/
def badCmdEffect (s : State) : State := refuseCmd .badCmd s

/-- BAD_CMD; a term that carries a command's code is no command of the table (log entry 18). -/
def execBadCmd (code : Byte) (s : State) : Host.Outcome State Fault Refusal :=
  if (Instr.badCmd code).wellFormed then .next (takeWrite (.badCmd code) badCmdEffect s) else .refused .illFormed

end Sys2Proof.Machine
end

