-- ==== Sys2Proof/Machine/Events.lean ====
section
/-! DEFINITION. The events of the part and the edges on TRIG: TICK, COUNTDOWN_EXPIRY, TRIG_EDGE, TAKE, SETTLING_EXPIRY,
COARSE_CONVERSION_END, SAMPLE, DELIVERY. An event whose conditions do not hold is not taken (log entry 3). -/

namespace Sys2Proof.Machine

/-- TICK (R25, R27, R29, R30). -/
def execTick (s : State) : Host.Outcome State Fault Refusal := .next (takeEvent tickExpiry s)

/-- The countdown of slot n reaches 0 at the next expiry (R29, R30). -/
def countdownEnds (n : Slot) (s : State) : Bool :=
  s.runState == .running && countdownActive (s.task n) && (s.task n).rt.countdown == 1#16

/-- The expiry that brings slot n's countdown to 0; when it does not, there is no such event (R29, log entry 4). -/
def expiryOf (n : Slot) (s : State) : State := if countdownEnds n s then tickExpiry s else s

/-- COUNTDOWN_EXPIRY (R29): the Tick Timer's expiry at which slot n's countdown reaches 0. One expiry is one whole event
for all tasks (R29, R37), so this is the same event as TICK, named by the task it makes due (log entry 4). -/
def execCountdownExpiry (n : Slot) (s : State) : Host.Outcome State Fault Refusal := .next (takeEvent (expiryOf n) s)

/-- A level held for the minimum time is recognised; a shorter one is recognised or not, by a free value (R34,
log entry 10). -/
def edgeEvent (hold : TrigHold) (s : State) : State :=
  match hold with
  | .full => recognisedEdge s
  | .short =>
    let s1 := { s with freeCount := s.freeCount + 1 }
    if Config.pulseTaken s.freeCount then recognisedEdge s1 else s1

/-- TRIG_EDGE (R34, R35, R37). -/
def execTrigEdge (hold : TrigHold) (s : State) : Host.Outcome State Fault Refusal := .next (takeEvent (edgeEvent hold) s)

/-- TAKE (R42, R57). -/
def execTake (s : State) : Host.Outcome State Fault Refusal := .next (takeEvent takeHead s)

/-- SETTLING_EXPIRY (R58). -/
def execSettlingExpiry (s : State) : Host.Outcome State Fault Refusal := .next (takeEvent endSettling s)

/-- COARSE_CONVERSION_END (R59, R60). -/
def execCoarseConversionEnd (c : BitVec 6) (s : State) : Host.Outcome State Fault Refusal :=
  .next (takeEvent (endRanging c) s)

/-- SAMPLE (R61, R62). -/
def execSample (code : BitVec 12) (overscaled : Bool) (s : State) : Host.Outcome State Fault Refusal :=
  .next (takeEvent (takeSample code overscaled) s)

/-- DELIVERY (R65, R66). -/
def execDelivery (code : BitVec 12) (overscaled : Bool) (s : State) : Host.Outcome State Fault Refusal :=
  .next (takeEvent (completeConversion code overscaled) s)

end Sys2Proof.Machine
end

