-- ==== Sys2Proof/Machine/Registers.lean ====
section
/-! DEFINITION. The register accesses: STOFS, STDATA, the clearing and advancing reads, and the plain register writes
(R9 to R11, R28, R124, R129, R144, R147, R153, R154). -/

namespace Sys2Proof.Machine

/-! ### The Stage's offset port (R9 to R11) -/

/-- STOFS advances by one, from 23 to 0 (R10, R11). -/
def Stage.advance (x : Stage) : Stage := { x with ofs := x.ofs + 1 }

/-- A write of 0 to 23 to STOFS sets it, 24 to 255 is ignored (R9). -/
def stofsEffect (value : Byte) (s : State) : State :=
  if h : value.toNat < 24 then s.setStage { s.stage with ofs := ⟨value.toNat, h⟩ } else s

/-- STOFS_WRITE. -/
def execStofsWrite (value : Byte) (s : State) : Host.Outcome State Fault Refusal :=
  .next (takeWrite (.stofsWrite value) (stofsEffect value) s)

/-- A read of STDATA advances STOFS (R10). -/
def stdataReadEffect (_returned : Byte) (s : State) : State := s.setStage s.stage.advance

/-- STDATA_READ. -/
def execStdataRead (s : State) : Host.Outcome State Fault Refusal :=
  .next (takeRead .stdataRead (readRegister 0x06#5) stdataReadEffect s)

/-- A write to STDATA stores the byte at positions 0 to 14, is ignored at 15 to 23, and advances STOFS (R11). -/
def stdataWriteEffect (value : Byte) (s : State) : State :=
  let img := if s.stage.ofs.val < 15 then s.stage.image.set s.stage.ofs value else s.stage.image
  s.setStage { s.stage with image := img }.advance

/-- STDATA_WRITE. -/
def execStdataWrite (value : Byte) (s : State) : Host.Outcome State Fault Refusal :=
  .next (takeWrite (.stdataWrite value) (stdataWriteEffect value) s)

/-! ### Reads with a change (R154) -/

/-- The change of a read of RQDATA: an empty read sets QUNDER (R130), any other opens, advances or retires (R128, R129). -/
def rqdataEffect (_returned : Byte) (s : State) : State :=
  if s.rq.records.isEmpty then setQunder s else s.setQueue (advanceRead s.rq)

/-- RQDATA_READ. -/
def execRqdataRead (s : State) : Host.Outcome State Fault Refusal :=
  .next (takeRead .rqdataRead (readRegister 0x07#5) rqdataEffect s)

/-- A read of LOSTCNT sets it to 0 (R124). -/
def lostcntEffect (_returned : Byte) (s : State) : State := s.setQueue { s.rq with lostcnt := 0#8 }

/-- LOSTCNT_READ. -/
def execLostcntRead (s : State) : Host.Outcome State Fault Refusal :=
  .next (takeRead .lostcntRead (readRegister 0x0B#5) lostcntEffect s)

/-- The position of TLATL or TLATH (R152). -/
def latchAddr : LatchHalf → Addr
  | .tlatl => 0x0C#5
  | .tlath => 0x0D#5

/-- A read of TLATL or TLATH clears the task latches it returned as 1 (R144). -/
def taskLatchEffect (half : LatchHalf) (returned : Byte) (s : State) : State :=
  s.setTaskLatch (s.taskLatch &&& ~~~ latchMask half returned)

/-- TASK_LATCH_READ. -/
def execTaskLatchRead (half : LatchHalf) (s : State) : Host.Outcome State Fault Refusal :=
  .next (takeRead (.taskLatchRead half) (readRegister (latchAddr half)) (taskLatchEffect half) s)

/-- A read of SLAT clears the system latches it returned as 1; TSUM is not a latch (R143, R144). -/
def slatEffect (returned : Byte) (s : State) : State := s.setSysLatch (s.sysLatch.clear returned)

/-- SLAT_READ. -/
def execSlatRead (s : State) : Host.Outcome State Fault Refusal :=
  .next (takeRead .slatRead (readRegister 0x0E#5) slatEffect s)

/-- A read of TICKL copies the high byte of the Tick Counter into the holding register (R28). -/
def ticklEffect (_returned : Byte) (s : State) : State := { s with tickHold := hiByte s.tickCount }

/-- TICKL_READ. -/
def execTicklRead (s : State) : Host.Outcome State Fault Refusal :=
  .next (takeRead .ticklRead (readRegister 0x14#5) ticklEffect s)

/-! ### Reads without a change (R154) -/

/-- The byte the part drives for a read of position `a`: the register's value, and none while the part is held in reset
(R151, R161). -/
def busByte (a : Addr) (s : State) : Option Byte := if s.held then none else some (readRegister a s)

/-- A read of a position that R154 does not list: the part drives the register's value and changes nothing, whether CLK
runs or not (R151, R164). No row of the table stands for it (log entry 17). -/
def plainRead (a : Addr) (s : State) : State := s.setDataOut (busByte a s)

/-! ### Plain register writes (R153) -/

/-- A write to RQCFG sets the policy and the watermark; bits 6-5 are ignored (R135). -/
def writeRqcfg (v : Byte) (q : ResultQueue) : ResultQueue :=
  { q with policy := if v.getLsbD 7 then .overwrite else .dropNew, watermark := v.extractLsb' 0 5 }

/-- A write to a position other than CMD, STOFS and STDATA stores the used bits of a read/write register and is ignored
at a read-only or unmapped position (R26, R34, R135, R147, R152, R153, R159). -/
def registerWriteEffect (a : Addr) (v : Byte) (s : State) : State :=
  match a.toNat with
  | 0x01 => { s with carg := v }
  | 0x0A => s.setQueue (writeRqcfg v s.rq)
  | 0x0F => { s with taskEnable := joinBytes (hiByte s.taskEnable) v }
  | 0x10 => { s with taskEnable := joinBytes v (loByte s.taskEnable) }
  | 0x11 => { s with sysEnable := v }
  | 0x12 => { s with tickDiv := joinBytes (hiByte s.tickDiv) v }
  | 0x13 => { s with tickDiv := joinBytes v (loByte s.tickDiv) }
  | 0x16 => { s with trigCfg := trigSettingOf (v.extractLsb' 0 2) }
  | _ => s

/-- REGISTER_WRITE; a term at a position another row owns is no command of the table (log entry 18). -/
def execRegisterWrite (a : Addr) (v : Byte) (s : State) : Host.Outcome State Fault Refusal :=
  if (Instr.registerWrite a v).wellFormed then .next (takeWrite (.registerWrite a v) (registerWriteEffect a v) s)
  else .refused .illFormed

end Sys2Proof.Machine
end

