-- ==== Sys2Proof/Machine/TaskCommands.lean ====
section
/-! DEFINITION. The commands on task slots: LOAD, COMMIT, START, STOP, TRIGGER. -/

namespace Sys2Proof.Machine

/-! ### LOAD (R14) -/

/-- LOAD of slot n: the Stage holds the slot's image and STOFS is 0 (R13, R14). -/
def loadSlot (n : Slot) (s : State) : State :=
  acceptCmd (s.setStage { image := imageOf (s.task n), ofs := 0 })

/-- The effect of LOAD (R14). -/
def loadEffect (s : State) : State := onSlot loadSlot s

/-- LOAD. -/
def execLoad (s : State) : Host.Outcome State Fault Refusal :=
  .next (takeWrite .load loadEffect s)

/-! ### COMMIT (R16 to R21) -/

/-- The walk of the link check from slot t: true when it comes to a link whose target is n (R19). Sixteen steps are more
than a table under law L6 allows; a walk that has not ended then counts as a loop (log entry 14). -/
def walkReaches (tasks : TaskTable) (n : Slot) : Nat → Slot → Bool
  | 0, _ => true
  | k + 1, t =>
    match tasks[t].cfg.link with
    | none => false
    | some u => u == n || walkReaches tasks n k u

/-- The proposed link of slot n would close a cycle (R19). -/
def linkLoops (tasks : TaskTable) (n : Slot) (link : Option Slot) : Bool :=
  match link with
  | none => false
  | some t => t == n || walkReaches tasks n 16 t

/-- The lock check refuses: the task is not STOPPED and a locked field differs (R20). -/
def lockRefuses (t : Task) (c : TaskConfig) : Bool :=
  t.rt.state != .stopped && !lockedEq c t.cfg

/-- The record a successful COMMIT stores: the proposed configuration whole, the decimation count set to 0 when the record
mode or decimation N changes, the rest of the runtime part kept (R21). -/
def commitTask (t : Task) (c : TaskConfig) : Task where
  cfg := c
  rt := { t.rt with
    decCount := if c.recMode = t.cfg.recMode ∧ c.decim = t.cfg.decim then t.rt.decCount else 0#4 }

/-- COMMIT of slot n after the slot check: fields, window, link, lock, in that order (R16). -/
def commitSlot (n : Slot) (s : State) : State :=
  match configOf s.stage.image with
  | none => refuseCmd .badField s
  | some c =>
    if !windowOk c then refuseCmd .badWindow s
    else if linkLoops s.tasks n c.link then refuseCmd .linkLoop s
    else if lockRefuses (s.task n) c then refuseCmd .locked s
    else acceptCmd (s.setTask n (commitTask (s.task n) c))

/-- The effect of COMMIT (R16). -/
def commitEffect (s : State) : State := onSlot commitSlot s

/-- COMMIT. -/
def execCommit (s : State) : Host.Outcome State Fault Refusal :=
  .next (takeWrite .commit commitEffect s)

/-! ### START (R44) -/

/-- START of a STOPPED task: ARMED with its countdown loaded from phase; a PERIODIC task with phase 0 loads its period and
is made due at once (R44). -/
def armTask (n : Slot) (s : State) : State :=
  let c := (s.task n).cfg
  if c.mode = .periodic ∧ c.phase = 0#16 then
    makeDue .normal n (s.modRuntime n fun r => { r with state := .armed, countdown := c.period })
  else s.modRuntime n fun r => { r with state := .armed, countdown := c.phase }

/-- START of slot n (R44). -/
def startSlot (n : Slot) (s : State) : State :=
  if (s.task n).rt.state = .stopped then acceptCmd (armTask n s) else refuseCmd .state s

/-- The effect of START (R44). -/
def startEffect (s : State) : State := onSlot startSlot s

/-- START. -/
def execStart (s : State) : Host.Outcome State Fault Refusal :=
  .next (takeWrite .start startEffect s)

/-! ### STOP (R45) -/

/-- STOP gives up the work of slot n: the Run Queue entry of a QUEUED task (R41), the conversion of a CONVERTING task
(R70). -/
def giveUpWork (n : Slot) (s : State) : State :=
  match (s.task n).rt.state with
  | .queued => s.setRunQueue (removeEntry n s.runQueue)
  | .converting => abandonConversion s
  | .armed => s
  | .stopped => s

/-- STOP of slot n: in every task state it becomes STOPPED with zone UNKNOWN (R45). -/
def stopSlot (n : Slot) (s : State) : State :=
  acceptCmd ((giveUpWork n s).modRuntime n fun r => { r with state := .stopped, zone := .unknown })

/-- The effect of STOP (R45). -/
def stopEffect (s : State) : State := onSlot stopSlot s

/-- STOP. -/
def execStop (s : State) : Host.Outcome State Fault Refusal :=
  .next (takeWrite .stop stopEffect s)

/-! ### TRIGGER (R33) -/

/-- TRIGGER of slot n: a STOPPED task refuses it, any other is made due (R33). -/
def triggerSlot (n : Slot) (s : State) : State :=
  if (s.task n).rt.state = .stopped then refuseCmd .state s
  else acceptCmd (makeDue (triggerKind (s.task n).cfg) n s)

/-- The effect of TRIGGER (R33). -/
def triggerEffect (s : State) : State := onSlot triggerSlot s

/-- TRIGGER. -/
def execTrigger (s : State) : Host.Outcome State Fault Refusal :=
  .next (takeWrite .trigger triggerEffect s)

end Sys2Proof.Machine
end

