-- ==== Sys2Proof/Machine/Power.lean ====
section
/-! DEFINITION. RES#, VCC and CLK: POWER_ON_RESET, VCC_APPLIED, CLK_STOP, CLK_RUNS_AGAIN (R161, R164). -/

namespace Sys2Proof.Machine

/-! ### The power-on reset and VCC (R161) -/

/-- Every block in its power-on state; `trig` is the level on TRIG at the rise of RES# (R161, R34). CLK is as it was, and
no access waits any more (log entry 8). `freeCount` and `pending` are the model's own and stay. -/
def powerOnEffect (trig : Level) (s : State) : State :=
  { State.reset with
    trigRef := trig
    clkRunning := s.clkRunning
    freeCount := s.freeCount
    pending := s.pending }

/-- A low pulse on RES# is taken as a reset: always at the minimum width or more, never at or below the rejection width,
and between the two by a free value (R161, log entry 10). The hold after VCC was applied ends only with a pulse of at
least the minimum width (R161, log entry 9). -/
def resTaken (width : ResWidth) (s : State) : Bool :=
  match width with
  | .full => true
  | .rejected => false
  | .marginal => !s.held && Config.pulseTaken s.freeCount

/-- A low pulse on RES# draws a free value (log entry 10). -/
def drawsFree (width : ResWidth) (s : State) : Bool := width == .marginal && !s.held

/-- A low pulse on RES#: a complete reset or nothing (R161). -/
def resPulse (width : ResWidth) (trig : Level) (s : State) : State :=
  let s1 := if drawsFree width s then { s with freeCount := s.freeCount + 1 } else s
  if resTaken width s then powerOnEffect trig s1 else s1

/-- POWER_ON_RESET; RES# takes effect whether CLK runs or not (R161, R164). -/
def execPowerOnReset (width : ResWidth) (trig : Level) (s : State) : Host.Outcome State Fault Refusal :=
  .next (resPulse width trig s)

/-- VCC is applied: the part holds itself in reset until RES# has been low for the minimum width and has risen (R161).
What its registers hold meanwhile cannot be seen (log entry 9). -/
def vccEffect (s : State) : State := { powerOnEffect .low s with held := true }

/-- VCC_APPLIED. -/
def execVccApplied (s : State) : Host.Outcome State Fault Refusal := .next (vccEffect s)

/-! ### CLK (R164) -/

/-- CLK_STOP: the part holds its state, and the changes of later bus accesses wait (R164). -/
def execClkStop (s : State) : Host.Outcome State Fault Refusal := .next { s with clkRunning := false }

/-- The change a bus access makes, with the byte a read returned; no other command is an access (R154, R164). -/
def accessEffect (c : Instr) (returned : Byte) (s : State) : State :=
  match c with
  | .load => loadEffect s
  | .commit => commitEffect s
  | .start => startEffect s
  | .stop => stopEffect s
  | .trigger => triggerEffect s
  | .halt => haltEffect s
  | .resume => resumeEffect s
  | .flush => flushEffect s
  | .discard => discardEffect s
  | .reset trig => resetEffect trig s
  | .badCmd _ => badCmdEffect s
  | .stofsWrite v => stofsEffect v s
  | .stdataRead => stdataReadEffect returned s
  | .stdataWrite v => stdataWriteEffect v s
  | .rqdataRead => rqdataEffect returned s
  | .lostcntRead => lostcntEffect returned s
  | .taskLatchRead half => taskLatchEffect half returned s
  | .slatRead => slatEffect returned s
  | .ticklRead => ticklEffect returned s
  | .registerWrite a v => registerWriteEffect a v s
  | .powerOnReset _ _ => s
  | .trigEdge _ => s
  | .tick => s
  | .countdownExpiry _ => s
  | .take => s
  | .settlingExpiry => s
  | .coarseConversionEnd _ => s
  | .sample _ _ => s
  | .delivery _ _ => s
  | .clkStop => s
  | .clkRunsAgain => s
  | .vccApplied => s

/-- The waiting changes, made in bus order (R164). -/
def makeWaiting (ws : List WaitingAccess) (s : State) : State :=
  ws.foldl (fun t w => accessEffect w.access w.returned t) s

/-- CLK runs again: the waiting changes are made in bus order before any other event (R164). -/
def clkRunsEffect (s : State) : State :=
  makeWaiting s.waiting { s with clkRunning := true, waiting := [] }

/-- CLK_RUNS_AGAIN. -/
def execClkRunsAgain (s : State) : Host.Outcome State Fault Refusal := .next (clkRunsEffect s)

end Sys2Proof.Machine
end

