-- ==== Sys2Proof/Machine/Dispatch.lean ====
section
/-! DEFINITION. One arm for each command of the table. -/

namespace Sys2Proof.Machine

def exec (i : Instr) (s : State) : Host.Outcome State Fault Refusal :=
  match i with
  | .load => Sys2Proof.Machine.execLoad s
  | .commit => Sys2Proof.Machine.execCommit s
  | .start => Sys2Proof.Machine.execStart s
  | .stop => Sys2Proof.Machine.execStop s
  | .trigger => Sys2Proof.Machine.execTrigger s
  | .halt => Sys2Proof.Machine.execHalt s
  | .resume => Sys2Proof.Machine.execResume s
  | .flush => Sys2Proof.Machine.execFlush s
  | .discard => Sys2Proof.Machine.execDiscard s
  | .reset trig => Sys2Proof.Machine.execReset trig s
  | .badCmd code => Sys2Proof.Machine.execBadCmd code s
  | .stofsWrite value => Sys2Proof.Machine.execStofsWrite value s
  | .stdataRead => Sys2Proof.Machine.execStdataRead s
  | .stdataWrite value => Sys2Proof.Machine.execStdataWrite value s
  | .rqdataRead => Sys2Proof.Machine.execRqdataRead s
  | .lostcntRead => Sys2Proof.Machine.execLostcntRead s
  | .taskLatchRead half => Sys2Proof.Machine.execTaskLatchRead half s
  | .slatRead => Sys2Proof.Machine.execSlatRead s
  | .ticklRead => Sys2Proof.Machine.execTicklRead s
  | .registerWrite addr value => Sys2Proof.Machine.execRegisterWrite addr value s
  | .powerOnReset width trig => Sys2Proof.Machine.execPowerOnReset width trig s
  | .trigEdge hold => Sys2Proof.Machine.execTrigEdge hold s
  | .tick => Sys2Proof.Machine.execTick s
  | .countdownExpiry slot => Sys2Proof.Machine.execCountdownExpiry slot s
  | .take => Sys2Proof.Machine.execTake s
  | .settlingExpiry => Sys2Proof.Machine.execSettlingExpiry s
  | .coarseConversionEnd c => Sys2Proof.Machine.execCoarseConversionEnd c s
  | .sample code overscaled => Sys2Proof.Machine.execSample code overscaled s
  | .delivery code overscaled => Sys2Proof.Machine.execDelivery code overscaled s
  | .clkStop => Sys2Proof.Machine.execClkStop s
  | .clkRunsAgain => Sys2Proof.Machine.execClkRunsAgain s
  | .vccApplied => Sys2Proof.Machine.execVccApplied s

end Sys2Proof.Machine
end

