-- ==== Sys2Proof/Machine/BusCycle.lean ====
section
/-! DEFINITION. From samples of the bus pins to register accesses (R151), from an access to what the part does, and the
part on its bus: what it drives on D7 to D0 through a bus cycle (R151), and the cycles a reset overlaps (R161). -/

namespace Sys2Proof.Machine

/-- One sample of the bus pins: CS#, RD# and WR# low or not, the address and the byte on D7 to D0, and RES# low or not (a
low level that the part takes as a reset; log entry 22). -/
structure BusPins where
  csLow : Bool
  rdLow : Bool
  wrLow : Bool
  addr : Addr
  data : Byte
  resLow : Bool := false
  deriving DecidableEq, Repr

/-- The port between two samples. -/
structure BusPort where
  /-- the last sample -/
  last : BusPins
  /-- a read has been taken in the present read strobe -/
  reading : Bool
  /-- the bus cycle in progress overlaps a reset and is not taken (R161) -/
  lost : Bool := false
  deriving DecidableEq, Repr

/-- A register access (R151). -/
inductive BusAccess where
  | read (addr : Addr)
  | write (addr : Addr) (value : Byte)
  deriving DecidableEq, Repr

/-- No strobe and no chip select. -/
def idlePort : BusPort where
  last := { csLow := false, rdLow := false, wrLow := false, addr := 0#5, data := 0#8 }
  reading := false

/-- CS# and RD# are both low. -/
def BusPins.readStrobe (x : BusPins) : Bool := x.csLow && x.rdLow

/-- CS# and WR# are both low. -/
def BusPins.writeStrobe (x : BusPins) : Bool := x.csLow && x.wrLow

/-- A read is taken at the later falling edge of CS# and RD#, with WR# high (R151), and none while RES# is low (R161). -/
def takesRead (p : BusPort) (x : BusPins) : Bool := x.readStrobe && !p.last.readStrobe && !x.wrLow && !x.resLow

/-- A write is taken at the first rising edge of WR# or CS# after both were low (R151), unless a reset overlapped the
cycle (R161). -/
def takesWrite (p : BusPort) (x : BusPins) : Bool := p.last.writeStrobe && !x.writeStrobe && !p.lost && !x.resLow

/-- A strobe that was low at the last sample is low still: the bus cycle goes on. -/
def sameCycle (p : BusPort) (x : BusPins) : Bool :=
  (p.last.readStrobe && x.readStrobe) || (p.last.writeStrobe && x.writeStrobe)

/-- The accesses taken at a sample, the end of a write strobe before a read that begins with it. -/
def accessesAt (p : BusPort) (x : BusPins) : List BusAccess :=
  (if takesWrite p x then [.write x.addr x.data] else []) ++ (if takesRead p x then [.read x.addr] else [])

/-- The port after a sample. -/
def nextPort (p : BusPort) (x : BusPins) : BusPort where
  last := x
  reading := x.readStrobe && !x.resLow && (p.reading || takesRead p x)
  lost := x.resLow || (p.lost && sameCycle p x)

/-- The port after a reset: a read in progress is at its end, and a write in progress is lost (R161). -/
def resetPort (p : BusPort) : BusPort := { p with reading := false, lost := true }

/-- The part drives D7 to D0 from a read taken until RD# or CS# rises, and never while WR# is low (R151). -/
def BusPort.drives (p : BusPort) : Bool := p.reading && p.last.readStrobe && !p.last.wrLow

/-- The accesses that a sequence of samples makes, in bus order (R151). -/
def busAccesses (p : BusPort) : List BusPins → List BusAccess
  | [] => []
  | x :: xs => accessesAt p x ++ busAccesses (nextPort p x) xs

/-! ### What the part does with an access (R152, R154, R161) -/

/-- The command an access is; a read that changes nothing is none (R152, R154, R155). -/
def accessCommand (trig : Level) : BusAccess → Option Instr
  | .read a => decodeRead a
  | .write a v => some (decodeWrite trig a v)

/-- An access is taken: the command it is, or a read that changes nothing but the byte on D7 to D0. -/
def takeAccess (trig : Level) (acc : BusAccess) (s : State) : Host.Outcome State Fault Refusal :=
  match acc with
  | .write a v => exec (decodeWrite trig a v) s
  | .read a =>
    match decodeRead a with
    | some i => exec i s
    | none => .next (plainRead a s)

/-- Accesses taken one after another. -/
def takeAccesses (trig : Level) : List BusAccess → State → Host.Outcome State Fault Refusal
  | [], s => .next s
  | acc :: rest, s =>
    match takeAccess trig acc s with
    | .next t => takeAccesses trig rest t
    | .fault r => .fault r
    | .refused r => .refused r

/-! ### The part on its bus (R151) -/

/-- The part with its port, and the byte that the latest read put on D7 to D0. -/
structure BusSystem where
  part : State
  port : BusPort
  latched : Option Byte
  deriving DecidableEq, Repr

/-- What the part drives on D7 to D0: the byte of the read while its strobe lasts, nothing otherwise (R151), and nothing
while the part is held in reset (R161). -/
def BusSystem.lines (b : BusSystem) : Option Byte :=
  if b.part.held || !b.port.drives then none else b.latched

/-- The part pulls IRQ# low (R146), which it leaves released while RES# is low (R161). -/
def BusSystem.irq (b : BusSystem) : Bool := irqLow b.part && !b.port.last.resLow

/-- What reaches the part on its bus: a sample of the bus pins (with the level on TRIG, which RESET reads), or a command
that is no bus cycle of this host. -/
inductive BusInput where
  | pins (trig : Level) (x : BusPins)
  | command (i : Instr)
  deriving DecidableEq, Repr

/-- A sample of the bus pins: its accesses are taken, and a read latches the byte it returned (R151). -/
def samplePins (trig : Level) (x : BusPins) (b : BusSystem) : Host.Outcome BusSystem Fault Refusal :=
  match takeAccesses trig (accessesAt b.port x) b.part with
  | .next t =>
    .next { part := t, port := nextPort b.port x, latched := if takesRead b.port x then t.dataOut else b.latched }
  | .fault r => .fault r
  | .refused r => .refused r

/-- The command resets the part, so that the bus cycle in progress is not taken (R161). -/
def overlapsCycle (i : Instr) (s : State) : Bool :=
  match i with
  | .powerOnReset width _ => resTaken width s
  | .vccApplied => true
  | _ => false

/-- One input of the part on its bus. A command other than a reset leaves the byte on the lines as it is (R151). -/
def busStep (input : BusInput) (b : BusSystem) : Host.Outcome BusSystem Fault Refusal :=
  match input with
  | .pins trig x => samplePins trig x b
  | .command i =>
    match exec i b.part with
    | .next t => .next { b with part := t, port := if overlapsCycle i b.part then resetPort b.port else b.port }
    | .fault r => .fault r
    | .refused r => .refused r

/-- Inputs one after another. -/
def runBus : List BusInput → BusSystem → Host.Outcome BusSystem Fault Refusal
  | [], b => .next b
  | x :: xs, b =>
    match busStep x b with
    | .next c => runBus xs c
    | .fault r => .fault r
    | .refused r => .refused r

end Sys2Proof.Machine
end

