-- ==== Sys2Proof/Safety.lean ====
section
/-! DEFINITION. The laws of the part as predicates of a state: what holds in every state a run reaches (laws L1 to L12 and
the ranges that the rules give). -/

namespace Sys2Proof.Machine

/-! ### Laws of the Task Table: L7 (R4) and L6 (R19) -/

/-- A configuration is valid (R4); the ranges and encodings of R4 hold by the types. -/
def ConfigValid (c : TaskConfig) : Prop :=
  (c.mode = .periodic → c.period ≠ 0#16) ∧ c.low.toNat ≤ c.high.toNat
    ∧ 2 * c.hyst.toNat ≤ c.high.toNat - c.low.toNat

/-- The slot reached from n by following k links, none where a link is absent. -/
def followLinks (tasks : TaskTable) : Nat → Slot → Option Slot
  | 0, n => some n
  | k + 1, n =>
    match tasks[n].cfg.link with
    | none => none
    | some t => followLinks tasks k t

/-- No slot reaches itself by following links (law L6, R19). -/
def LinksAcyclic (tasks : TaskTable) : Prop := ∀ (n : Slot) (k : Nat), followLinks tasks (k + 1) n ≠ some n

/-- The laws of the Task Table: every configuration valid (L7), no cycle of links (L6). -/
structure TableLaws (s : State) : Prop where
  valid : ∀ n : Slot, ConfigValid (s.task n).cfg
  acyclic : LinksAcyclic s.tasks

/-! ### Laws of the Scheduler: L1, L2, L9 (R38, R42, R48) and the order of ranks -/

/-- The laws of the Scheduler. -/
structure SchedulerLaws (s : State) : Prop where
  /-- a slot is in the Run Queue exactly when its task is QUEUED (L1) -/
  queued : ∀ n : Slot, (∃ e ∈ s.runQueue, e.slot = n) ↔ (s.task n).rt.state = .queued
  /-- no slot stands in it twice (L1) -/
  once : (s.runQueue.map fun e => e.slot).Nodup
  /-- the ranks never rise from head to tail (section 2.5) -/
  ranks : s.runQueue.Pairwise fun a b => b.rank ≤ a.rank
  /-- the unit is out of IDLE exactly when one task is CONVERTING, its current task (L2) -/
  converting : ∀ n : Slot, (s.task n).rt.state = .converting ↔ s.conv.map (fun c => c.slot) = some n
  /-- HALTED means IDLE (L9) -/
  halted : s.runState = .halted → s.conv = none
  /-- HALTING exists only while a conversion is in progress (R162) -/
  halting : s.runState = .halting → s.conv ≠ none

/-! ### Laws of the Conversion Unit: L10 and the ranges of R55 -/

/-- The laws of a conversion in progress. -/
structure ConversionLaws (s : State) : Prop where
  /-- the copied parameters equal the stored fields (R56, law L10) -/
  params : ∀ c, s.conv = some c → c.params = paramsOf (s.task c.slot).cfg
  /-- before SAMPLING nothing has been measured (R58) -/
  early : ∀ c, s.conv = some c → c.phase ≠ .sampling →
    c.samples = 0 ∧ c.sum = 0 ∧ c.overSeen = false ∧ c.coarse = none
  /-- only AUTO conversions range (R59) -/
  ranging : ∀ c, s.conv = some c → c.phase = .ranging → c.params.policy = .auto
  /-- a fixed policy's working gain is the policy's (R57, R75) -/
  fixed : ∀ c, s.conv = some c → ∀ g, c.params.policy.fixedGain = some g → c.workingGain = g ∧ c.coarse = none
  /-- under AUTO the working gain is the stored one until RANGING ends (R57, R60) -/
  stored : ∀ c, s.conv = some c → c.params.policy = .auto → c.phase ≠ .sampling → c.workingGain = (s.task c.slot).rt.gain
  /-- fewer than A samples have been taken (R61) -/
  samples : ∀ c, s.conv = some c → c.samples < c.params.avg.count
  /-- the sample sum is within the codes' range (R61, R63) -/
  sum : ∀ c, s.conv = some c → c.sum ≤ c.samples * c.params.res.fullScale

/-! ### Laws of the runtime parts: R29, R83, R105, R106 -/

/-- The ranges of a task's runtime fields. -/
structure RuntimeLaws (s : State) : Prop where
  /-- the countdown of an active PERIODIC task is between 1 and the larger of its phase and its period (R29) -/
  countdown : ∀ n : Slot, (s.task n).cfg.mode = .periodic → (s.task n).rt.state ≠ .stopped →
    1 ≤ (s.task n).rt.countdown.toNat ∧
    (s.task n).rt.countdown.toNat ≤ max (s.task n).cfg.phase.toNat (s.task n).cfg.period.toNat
  /-- the decimation count is 0 outside EVERY_N (R106) -/
  noDecimation : ∀ n : Slot, (s.task n).cfg.recMode ≠ .everyN → (s.task n).rt.decCount = 0#4
  /-- under EVERY_N it is at most N − 1 (R105) -/
  decimation : ∀ n : Slot, (s.task n).cfg.recMode = .everyN →
    (s.task n).rt.decCount.toNat < (s.task n).cfg.decimation
  /-- last N is at most 32760 (R83) -/
  lastN : ∀ n : Slot, (s.task n).rt.lastN.toNat ≤ 32760

/-! ### Laws of the Result Queue: L3, L4, L5, L11 (R111, R117, R118, R127) -/

/-- The sequence numbers rise by one from record to record, and the next one follows the newest (L4, R118). -/
def SeqRun (next : Byte) : List QRecord → Prop
  | [] => True
  | r :: rs =>
    r.seq + 1#8 = (match rs with
      | [] => next
      | r' :: _ => r'.seq) ∧ SeqRun next rs

/-- The record is a GAP record. -/
def QRecord.isGap : QRecord → Bool
  | .gap _ _ => true
  | .result _ _ => false

/-- Every GAP record has a RESULT record right behind it (R117). -/
def GapsPaired : List QRecord → Prop
  | [] => True
  | r :: rs => (r.isGap = true → ∃ x xs, rs = x :: xs ∧ x.isGap = false) ∧ GapsPaired rs

/-- A stored record is one the rules allow: a GAP record with a lost count from 1 to 255, a RESULT record with a known
zone and no miss part of 0 (L11, R111, R114). -/
def RecordValid : QRecord → Prop
  | .gap _ lost => lost ≠ 0#8
  | .result _ b => b.zone ≠ .unknown ∧ b.miss ≠ some 0#8

/-- The laws of the Result Queue. -/
structure QueueLaws (q : ResultQueue) : Prop where
  /-- RQBYTES never exceeds 128 (L3) -/
  bytes : q.rqbytes ≤ 128
  /-- consecutive numbers (L4) -/
  seqs : SeqRun q.nextSeq q.records
  /-- every gap before its record (R117) -/
  paired : GapsPaired q.records
  /-- every record well composed (L11) -/
  valid : ∀ r ∈ q.records, RecordValid r
  /-- the open record is the oldest, and the read index a position behind its first byte (L5, R116) -/
  opened : ∀ i, q.readIndex = some i → ∃ r rs, q.records = r :: rs ∧ 1 ≤ i ∧ i < r.length

/-! ### All laws together -/

/-- Every law of the part. -/
structure PartLaws (s : State) : Prop where
  table : TableLaws s
  scheduler : SchedulerLaws s
  conversion : ConversionLaws s
  runtime : RuntimeLaws s
  queue : QueueLaws s.rq

/-- The part takes accesses and events as they come: it is not held in reset and CLK runs (R161, R164). -/
def Ready (s : State) : Prop := s.held = false ∧ s.clkRunning = true

/-- The commands of a list taken one after another, stopping at the first that is refused. -/
def runCommands : List Instr → State → Host.Outcome State Fault Refusal
  | [], s => .next s
  | c :: cs, s =>
    match exec c s with
    | .next t => runCommands cs t
    | .fault r => .fault r
    | .refused r => .refused r

end Sys2Proof.Machine
end

