-- ==== Sys2Proof/Certificates/Slice0/Obligations.lean ====
section
/-! DEFINITION. The statements for the provers. `Ready s` says that the part is not held in reset and CLK runs; `dataOut`
is the model's own field (log entry 6), and its value in a next state is what R151 says the part drives. -/

open Sys2Proof Sys2Proof.Machine

/-! ### The queue, completion, and the bus -/

/-- The row's own form of a step: the command at the front runs with the queue's rest; on an empty queue the block idles
(the model's choice, log entry 1). -/
def Obligations.StepTakesFrontCommand : Prop :=
  (∀ (c : Instr) (rest : List Instr) (s : State),
    step { s with pending := c :: rest } = exec c { s with pending := rest }) ∧
  (∀ s : State, s.pending = [] → step s = .next s)

/-- Every command of the table completes from every state and leaves the queue alone (R151: every access completes); a term
that is no command of the table is refused by name (the model's choice, log entry 18). -/
def Obligations.CommandsCompleteExactlyWhenWellFormed : Prop :=
  ∀ (i : Instr) (s : State),
    (i.wellFormed = true → ∃ t, exec i s = .next t ∧ t.pending = s.pending) ∧
    (i.wellFormed = false → exec i s = .refused .illFormed)

/-- The address decode and its inverse agree (R152, R153, R154, R155, R156): every write of every byte to every position is
one well-formed command that encodes back to it, and a well-formed write command decodes to itself (RESET with the level of
TRIG it was given); the reads that change the part decode to themselves. -/
def Obligations.BusDecodeEncodeAgree : Prop :=
  (∀ (trig : Level) (a : Addr) (v : Byte),
    (decodeWrite trig a v).wellFormed = true ∧ encodeWrite (decodeWrite trig a v) = some (a, v)) ∧
  (∀ (i : Instr) (trig : Level) (a : Addr) (v : Byte), i.wellFormed = true → encodeWrite i = some (a, v) →
    (∀ l, i = .reset l → l = trig) → decodeWrite trig a v = i) ∧
  (∀ (i : Instr) (a : Addr), encodeRead i = some a ↔ decodeRead a = some i)

/-- A read strobe held low takes one access, the read at its falling edge; a write strobe takes one, at its end, with the
address and data of that moment; both strobes falling together take the write alone; with CS# high nothing is taken
(R151). -/
def Obligations.BusStrobesTakeOneAccess : Prop :=
  ∀ (a b : Addr) (x y : Byte) (k : Nat),
    let off : BusPins := { csLow := false, rdLow := false, wrLow := false, addr := b, data := y }
    let rd : BusPins := { csLow := true, rdLow := true, wrLow := false, addr := a, data := x }
    let wr : BusPins := { csLow := true, rdLow := false, wrLow := true, addr := a, data := x }
    let rw : BusPins := { csLow := true, rdLow := true, wrLow := true, addr := a, data := x }
    let nocs : BusPins := { csLow := false, rdLow := true, wrLow := true, addr := a, data := x }
    busAccesses idlePort (List.replicate (k + 1) rd ++ [off]) = [.read a] ∧
    busAccesses idlePort (List.replicate (k + 1) wr ++ [off]) = [.write b y] ∧
    busAccesses idlePort (List.replicate (k + 1) rw ++ [off]) = [.write b y] ∧
    busAccesses idlePort (List.replicate (k + 1) rw ++ [rd, off]) = [.write a x] ∧
    busAccesses idlePort (rd :: List.replicate (k + 1) rw ++ [off]) = [.read a, .write b y] ∧
    busAccesses idlePort (List.replicate (k + 1) nocs ++ [off]) = []

/-- Reads return what the register map gives (R152, R157, R162, R163): CMDST's nine codes, CARG, DSTAT's five items, CURTASK,
RUNQ, the counts and 00h at an unmapped position. -/
def Obligations.StatusViewsShowState : Prop :=
  ∀ s : State,
    (∀ a : Addr, 0x17 ≤ a.toNat → readRegister a s = 0x00#8) ∧
    (readRegister 0x00#5 s).toNat =
      (match s.cmdst with
        | .ok => 0
        | .badCmd => 1
        | .badSlot => 2
        | .state => 3
        | .locked => 4
        | .badField => 5
        | .badWindow => 6
        | .linkLoop => 7
        | .empty => 8) ∧
    readRegister 0x01#5 s = s.carg ∧
    (readRegister 0x02#5 s).toNat =
      (match s.runState with
        | .running => 0
        | .halting => 64
        | .halted => 128)
      + (if s.conv = none then 0 else 32) + (if s.rq.readIndex = none then 0 else 16)
      + (if s.rq.records = [] then 8 else 0) + (if s.rq.pendingGap = 0#8 then 0 else 4) ∧
    (s.conv = none → readRegister 0x03#5 s = 0xFF#8) ∧
    (∀ c, s.conv = some c → (readRegister 0x03#5 s).toNat = c.slot.val) ∧
    (s.runQueue.length ≤ 16 → (readRegister 0x04#5 s).toNat = s.runQueue.length) ∧
    (s.rq.rqbytes ≤ 128 → (readRegister 0x08#5 s).toNat = s.rq.rqbytes) ∧
    (s.rq.rqrecs ≤ 32 → (readRegister 0x09#5 s).toNat = s.rq.rqrecs)

/-! ### Resets and power -/

/-- A low pulse on RES# of at least the minimum width gives every slot its default record, whose image is the one R6
writes out. -/
def Obligations.PowerOnResetGivesDefaultRecords : Prop :=
  ∀ (s : State) (l : Level), ∃ t, exec (.powerOnReset .full l) s = .next t ∧ ∀ n : Slot,
    t.task n =
      { cfg := { mode := .host, single := false, stamp := false, recMode := .always, priority := 0, channel := n,
                 res := .bits12, avg := .x1, policy := .fix1, settle := 0, firstZone := false, enAbove := false,
                 enInside := false, enBelow := false, decim := 0, period := 100#16, phase := 0#16, low := 0#15,
                 high := 32767#15, hyst := 0#14, link := none }
        rt := { state := .stopped, zone := .unknown, gain := .x1, lastFired := false, lastOver := false,
                missCount := 0#8, decCount := 0#4, countdown := 0#16, lastN := 0#15, lastCode := 0#12 } } ∧
    (imageOf (t.task n)).toList =
      [0x40#8, BitVec.ofNat 8 (n.val * 16 + 8), 0x00#8, 0x00#8, 0x00#8, 0x64#8, 0x00#8, 0x00#8, 0x00#8, 0x00#8, 0x7F#8,
       0xFF#8, 0x00#8, 0x00#8, 0x00#8, 0x00#8, 0x00#8, 0x00#8, 0x00#8, 0x00#8, 0x00#8, 0x00#8, 0x00#8, 0x00#8] ∧
    ConfigValid (t.task n).cfg

/-- The other blocks after a power-on reset (R8, R53, R74, R137, R148, R157, R159, R161), from every state, CLK running or
not; the views read as the register map says (R152), IRQ# is released, and the hold after VCC ends. The waiting list is
empty by log entry 8, `dataOut` by log entry 6, and `freeCount` is kept by log entry 10. -/
def Obligations.PowerOnResetLeavesEveryBlock : Prop :=
  ∀ (s : State) (l : Level), ∃ t, exec (.powerOnReset .full l) s = .next t ∧
    t.stage.image = imageOf (t.task 0) ∧ t.stage.ofs = 0 ∧ t.tickDiv = 0#16 ∧ tickLength t.tickPeriod = 64 ∧
    t.tickCount = 0#16 ∧ t.tickHold = 0#8 ∧ t.trigCfg = .off ∧ t.trigRef = l ∧ t.runQueue = [] ∧ t.runState = .halted ∧
    t.conv = none ∧ t.rq.records = [] ∧ t.rq.readIndex = none ∧ t.rq.nextSeq = 0#8 ∧ t.rq.pendingGap = 0#8 ∧
    t.rq.lostcnt = 0#8 ∧ t.rq.policy = .dropNew ∧ t.rq.watermark = 0#5 ∧ readRegister 0x0A#5 t = 0x00#8 ∧ t.taskLatch = 0#16 ∧ slatByte t = 0x00#8 ∧
    t.taskEnable = 0#16 ∧ t.sysEnable = 0x00#8 ∧ irqLow t = false ∧ t.cmdst = .ok ∧ t.carg = 0x00#8 ∧
    dstat t = 0x88#8 ∧ curtask t = 0xFF#8 ∧ t.held = false ∧ t.clkRunning = s.clkRunning ∧ t.waiting = [] ∧
    t.dataOut = none ∧ t.freeCount = s.freeCount

/-- A RES# pulse at or below the rejection width changes nothing; a marginal pulse of a part that is not held is taken as a
complete reset or ignored altogether (R161). A level of TRIG held for less than the minimum time is recognised as an edge
like any other or changes nothing (R34). The counter of free values moves on (log entry 10). -/
def Obligations.NarrowPulsesAreWholeOrNothing : Prop :=
  (∀ (s : State) (l : Level), exec (.powerOnReset .rejected l) s = .next s) ∧
  (∀ (s : State) (l : Level), s.held = false →
    let s1 := { s with freeCount := s.freeCount + 1 }
    exec (.powerOnReset .marginal l) s = .next s1 ∨
    exec (.powerOnReset .marginal l) s = exec (.powerOnReset .full l) s1) ∧
  (∀ s : State, Ready s →
    let s1 := { s with freeCount := s.freeCount + 1 }
    exec (.trigEdge .short) s = .next s1 ∨ exec (.trigEdge .short) s = exec (.trigEdge .full) s1)

/-- RESET: runtime parts at the defaults with every configuration kept (R7), and the Scheduler as after power-on reset but
for TICKDIV and TRIGCFG (R54); with it the other blocks' parts (R8, R72, R138, R149, R157): the equation is the whole next
state. -/
def Obligations.SoftResetKeepsConfiguration : Prop :=
  ∀ (s : State) (l : Level), Ready s → ∃ t, exec (.reset l) s = .next t ∧
    (∀ n : Slot, (t.task n).cfg = (s.task n).cfg ∧
      (t.task n).rt = { state := .stopped, zone := .unknown, gain := .x1, lastFired := false, lastOver := false,
                        missCount := 0#8, decCount := 0#4, countdown := 0#16, lastN := 0#15, lastCode := 0#12 }) ∧
    t = { s with
          tasks := t.tasks
          stage := { image := s.stage.image, ofs := 0 }
          tickPeriod := s.tickDiv, tickCount := 0#16, tickHold := 0#8
          trigRef := l, runQueue := [], runState := .halted, conv := none
          rq := { records := [], readIndex := none, nextSeq := 0#8, pendingGap := 0#8, lostcnt := 0#8
                  policy := s.rq.policy, watermark := s.rq.watermark }
          taskLatch := 0#16
          sysLatch := { qready := false, qover := false, qunder := false, miss := false, abort := false, halted := false,
                        cmderr := false }
          cmdst := .ok, dataOut := none } ∧
    irqLow t = false ∧ dstat t = 0x88#8 ∧ curtask t = 0xFF#8

/-- When VCC is applied the part is held: IRQ# is released, and every command but a RES# pulse of the minimum width, a CLK
row and VCC_APPLIED itself leaves it so and changes nothing but what the part drives on D7 to D0, which is nothing (R161;
what the registers hold meanwhile is the model's choice, log entry 9). -/
def Obligations.VccHoldsThePartInReset : Prop :=
  (∀ s : State, ∃ t, exec .vccApplied s = .next t ∧ t.held = true ∧ irqLow t = false ∧ t.clkRunning = s.clkRunning ∧
    t.dataOut = none) ∧
  (∀ (i : Instr) (s : State), s.held = true → i.wellFormed = true → (∀ l, i ≠ .powerOnReset .full l) →
    i ≠ .clkStop → i ≠ .clkRunsAgain → i ≠ .vccApplied →
    exec i s = .next s ∨ exec i s = .next { s with dataOut := none }) ∧
  (∀ s : State, s.held = true → irqLow s = false)

/-- Stopping CLK holds the state. While CLK is stopped no event of the part and no edge is taken; a write waits; a read
returns its register's value as it stands, and its change waits (R164). -/
def Obligations.StoppedClkMakesAccessesWait : Prop :=
  (∀ s : State, exec .clkStop s = .next { s with clkRunning := false }) ∧
  ∀ s : State, s.held = false → s.clkRunning = false →
    (∀ i, (i = .tick ∨ (∃ n, i = .countdownExpiry n) ∨ i = .take ∨ i = .settlingExpiry ∨
        (∃ c, i = .coarseConversionEnd c) ∨ (∃ c o, i = .sample c o) ∨ (∃ c o, i = .delivery c o) ∨
        (∃ h, i = .trigEdge h)) → exec i s = .next s) ∧
    (∀ (i : Instr) (a : Addr) (v : Byte), i.wellFormed = true → encodeWrite i = some (a, v) →
      ∃ w, exec i s = .next { s with dataOut := none, waiting := s.waiting ++ [{ access := i, returned := w }] }) ∧
    (∀ (i : Instr) (a : Addr), encodeRead i = some a →
      exec i s = .next { s with
        dataOut := some (readRegister a s)
        waiting := s.waiting ++ [{ access := i, returned := readRegister a s }] })

/-- Writes and commands given while CLK is stopped are taken when CLK runs again, in bus order (R164): the part ends where
it would have ended with CLK running throughout. -/
def Obligations.WaitingWritesAreTakenInBusOrder : Prop :=
  ∀ (ws : List Instr) (s : State), Ready s → s.waiting = [] →
    (∀ i ∈ ws, i.wellFormed = true ∧ ∃ a v, encodeWrite i = some (a, v)) →
    ∃ t, runCommands ws s = .next t ∧ runCommands ([.clkStop] ++ ws ++ [.clkRunsAgain]) s = .next t

/-- What CLK running again does with the accesses that wait (R164): nothing when none waits; a latch read clears exactly the
latches it returned as 1, and nothing a later change has set (R144; the reading of R164 for it is log entry 7); any other
access changes what it would change then with CLK running, but for the data lines, on which its byte was driven before
(log entry 7); and of several, reads and writes alike, each is made after the one before it, in bus order. -/
def Obligations.WaitingLatchReadClearsWhatItReturned : Prop :=
  (∀ s : State, s.waiting = [] → exec .clkRunsAgain s = .next { s with clkRunning := true }) ∧
  (∀ (s : State) (b : Byte), s.waiting = [{ access := .slatRead, returned := b }] →
    exec .clkRunsAgain s = .next { s with
      clkRunning := true, waiting := []
      sysLatch := { qready := s.sysLatch.qready && !b.getLsbD 0
                    qover := s.sysLatch.qover && !b.getLsbD 1
                    qunder := s.sysLatch.qunder && !b.getLsbD 2
                    miss := s.sysLatch.miss && !b.getLsbD 3
                    abort := s.sysLatch.abort && !b.getLsbD 4
                    halted := s.sysLatch.halted && !b.getLsbD 5
                    cmderr := s.sysLatch.cmderr && !b.getLsbD 6 } }) ∧
  (∀ (s : State) (b : Byte), s.waiting = [{ access := .taskLatchRead .tlatl, returned := b }] →
    ∃ l : Word16, exec .clkRunsAgain s = .next { s with clkRunning := true, waiting := [], taskLatch := l } ∧
      ∀ n : Slot, l.getLsbD n.val = (s.taskLatch.getLsbD n.val && !(decide (n.val < 8) && b.getLsbD n.val))) ∧
  (∀ (s : State) (b : Byte), s.waiting = [{ access := .taskLatchRead .tlath, returned := b }] →
    ∃ l : Word16, exec .clkRunsAgain s = .next { s with clkRunning := true, waiting := [], taskLatch := l } ∧
      ∀ n : Slot, l.getLsbD n.val = (s.taskLatch.getLsbD n.val && !(decide (8 ≤ n.val) && b.getLsbD (n.val - 8)))) ∧
  (∀ (s : State) (i : Instr) (b : Byte), s.held = false → s.waiting = [{ access := i, returned := b }] →
    (i = .stdataRead ∨ i = .rqdataRead ∨ i = .lostcntRead ∨ i = .ticklRead ∨
      (i.wellFormed = true ∧ ∃ a v, encodeWrite i = some (a, v))) →
    ∃ t, exec i { s with clkRunning := true, waiting := [] } = .next t ∧
      exec .clkRunsAgain s = .next { t with dataOut := s.dataOut }) ∧
  (∀ (s : State) (w : WaitingAccess) (ws : List WaitingAccess), s.waiting = w :: ws →
    ∃ t, exec .clkRunsAgain { s with waiting := [w] } = .next t ∧ t.clkRunning = true ∧ t.waiting = [] ∧
      exec .clkRunsAgain s = exec .clkRunsAgain { t with waiting := ws })

/-! ### The command port -/

/-- A refused command changes CMDST and the CMDERR latch and nothing else of the part; a command whose result is OK does
not set CMDERR (R158). -/
def Obligations.RefusedCommandChangesOnlyStatus : Prop :=
  ∀ (i : Instr) (code : Byte) (s : State), Ready s → i.wellFormed = true → encodeWrite i = some (0x00#5, code) →
    ∃ t, exec i s = .next t ∧
      (t.cmdst ≠ .ok → t = { s with cmdst := t.cmdst, sysLatch := { s.sysLatch with cmderr := true }, dataOut := none }) ∧
      (t.cmdst = .ok → t.sysLatch.cmderr = true → s.sysLatch.cmderr = true)

/-- The five slot commands are refused with BAD_SLOT when CARG holds 16 to 255, before any other check, and a code that is no
command is refused with BAD_CMD; CMDERR is set and no block is acted on (R156). -/
def Obligations.PortRefusesBadSlotsAndCodes : Prop :=
  ∀ s : State, Ready s →
    (∀ i : Instr, 16 ≤ s.carg.toNat → (i = .load ∨ i = .commit ∨ i = .start ∨ i = .stop ∨ i = .trigger) →
      exec i s = .next { s with cmdst := .badSlot, sysLatch := { s.sysLatch with cmderr := true }, dataOut := none }) ∧
    (∀ code : Byte, code ∉ [0x01#8, 0x02#8, 0x10#8, 0x11#8, 0x12#8, 0x20#8, 0x21#8, 0x30#8, 0x31#8, 0x5A#8] →
      exec (.badCmd code) s =
        .next { s with cmdst := .badCmd, sysLatch := { s.sysLatch with cmderr := true }, dataOut := none })

/-! ### Stage, LOAD, COMMIT -/

/-- Every byte of the Stage image of a task record as the layout gives it, written as a number (R12, R13). -/
def Obligations.StageImageLayout : Prop :=
  ∀ t : Task,
    let img := imageOf t
    img[0].toNat = 64 * (match t.cfg.mode with
        | .periodic => 0
        | .host => 1
        | .external => 2
        | .chained => 3)
      + 32 * t.cfg.single.toNat + 16 * t.cfg.stamp.toNat
      + 4 * (match t.cfg.recMode with
        | .always => 0
        | .onEvent => 1
        | .everyN => 2
        | .none => 3)
      + t.cfg.priority.val ∧
    img[1].toNat = 16 * t.cfg.channel.val
      + 4 * (match t.cfg.res with
        | .bits8 => 0
        | .bits10 => 1
        | .bits12 => 2)
      + (match t.cfg.avg with
        | .x1 => 0
        | .x2 => 1
        | .x4 => 2
        | .x8 => 3) ∧
    img[2].toNat = 32 * (match t.cfg.policy with
        | .fix1 => 0
        | .fix2 => 1
        | .fix4 => 2
        | .fix8 => 3
        | .auto => 4)
      + 2 * t.cfg.settle.val ∧
    img[3].toNat = 128 * t.cfg.firstZone.toNat + 64 * t.cfg.enAbove.toNat + 32 * t.cfg.enInside.toNat
      + 16 * t.cfg.enBelow.toNat + (t.cfg.decimation - 1) ∧
    256 * img[4].toNat + img[5].toNat = t.cfg.period.toNat ∧
    256 * img[6].toNat + img[7].toNat = t.cfg.phase.toNat ∧
    256 * img[8].toNat + img[9].toNat = t.cfg.low.toNat ∧
    256 * img[10].toNat + img[11].toNat = t.cfg.high.toNat ∧
    256 * img[12].toNat + img[13].toNat = t.cfg.hyst.toNat ∧
    img[14].toNat = (match t.cfg.link with
        | none => 0
        | some m => 128 + m.val) ∧
    img[15].toNat = 64 * (match t.rt.state with
        | .stopped => 0
        | .armed => 1
        | .queued => 2
        | .converting => 3)
      + 16 * (match t.rt.zone with
        | .unknown => 0
        | .below => 1
        | .inside => 2
        | .above => 3)
      + 4 * (match t.rt.gain with
        | .x1 => 0
        | .x2 => 1
        | .x4 => 2
        | .x8 => 3)
      + 2 * t.rt.lastFired.toNat + t.rt.lastOver.toNat ∧
    img[16] = t.rt.missCount ∧
    img[17].toNat = t.rt.decCount.toNat ∧
    256 * img[18].toNat + img[19].toNat = t.rt.countdown.toNat ∧
    256 * img[20].toNat + img[21].toNat = t.rt.lastN.toNat ∧
    256 * img[22].toNat + img[23].toNat = t.rt.lastCode.toNat

/-- Encoding and decoding a configuration agree (R12, R17): the image of a valid configuration decodes to it, and an image
that decodes has the bytes of the configuration it decodes to, but for the LINK target bits of an absent link. -/
def Obligations.ConfigurationImageRoundTrip : Prop :=
  (∀ t : Task, ConfigValid t.cfg → configOf (imageOf t) = some t.cfg) ∧
  (∀ (img : Vector Byte 24) (c : TaskConfig) (r : TaskRuntime), configOf img = some c →
    (∀ k : Fin 24, k.val < 14 → (imageOf { cfg := c, rt := r })[k] = img[k]) ∧
    (imageOf { cfg := c, rt := r })[14] = if img[14].getLsbD 7 then img[14] else 0x00#8)

/-- LOAD of a slot (R14): the Stage holds its image (layout: StageImageLayout), STOFS is 0, CMDST is OK, nothing else of the
part changes. -/
def Obligations.LoadCopiesSlotIntoStage : Prop :=
  ∀ (s : State) (n : Slot), Ready s → s.carg.toNat = n.val →
    exec .load s = .next { s with stage := { image := imageOf (s.task n), ofs := 0 }, cmdst := .ok, dataOut := none }

/-- A write of 0 to 23 to STOFS sets it, 24 to 255 is ignored, a read returns it (R9). A read of STDATA returns the byte at
STOFS, which advances from 23 to 0; twenty-four reads from STOFS = 0 return the image in order and leave STOFS at 0
(R10). -/
def Obligations.StofsSelectsAndStdataReadsReturn : Prop :=
  (∀ (s : State) (v : Byte), Ready s →
    (∀ k : Fin 24, v.toNat = k.val →
      exec (.stofsWrite v) s = .next { s with stage := { image := s.stage.image, ofs := k }, dataOut := none }) ∧
    (24 ≤ v.toNat → exec (.stofsWrite v) s = .next { s with dataOut := none }) ∧
    (readRegister 0x05#5 s).toNat = s.stage.ofs.val) ∧
  (∀ (s : State) (k : Fin 24), Ready s → s.stage.ofs = k →
    ∃ j : Fin 24, (k.val < 23 → j.val = k.val + 1) ∧ (k.val = 23 → j.val = 0) ∧
      exec .stdataRead s =
        .next { s with stage := { image := s.stage.image, ofs := j }, dataOut := some s.stage.image[k] }) ∧
  (∀ (s : State) (k : Fin 24), Ready s → s.stage.ofs = 0 →
    ∃ t, runCommands (List.replicate (k.val + 1) .stdataRead) s = .next t ∧ t.dataOut = some s.stage.image[k] ∧
      t.stage.image = s.stage.image ∧ (k.val = 23 → t.stage.ofs = 0))

/-- A write to STDATA stores at positions 0 to 14, is ignored at 15 to 23, and advances STOFS; fifteen writes from
STOFS = 0 store the bytes and leave STOFS at 15; nine more bring it to 0 without touching the snapshot (R11). -/
def Obligations.StdataWritesFillTheImage : Prop :=
  (∀ (s : State) (v : Byte) (k : Fin 24), Ready s → s.stage.ofs = k →
    ∃ (j : Fin 24) (img : Vector Byte 24), (k.val < 23 → j.val = k.val + 1) ∧ (k.val = 23 → j.val = 0) ∧
      exec (.stdataWrite v) s = .next { s with stage := { image := img, ofs := j }, dataOut := none } ∧
      (∀ i : Fin 24, img[i] = if i = k ∧ k.val < 15 then v else s.stage.image[i])) ∧
  (∀ (s : State) (bs : List Byte), Ready s → s.stage.ofs = 0 → bs.length = 15 →
    ∃ t, runCommands (bs.map .stdataWrite) s = .next t ∧ t.stage.ofs.val = 15 ∧
      ∀ i : Fin 24, t.stage.image[i] = bs.getD i.val s.stage.image[i]) ∧
  (∀ (s : State) (bs : List Byte), Ready s → s.stage.ofs.val = 15 → bs.length = 9 →
    ∃ t, runCommands (bs.map .stdataWrite) s = .next t ∧ t.stage.ofs.val = 0 ∧ t.stage.image = s.stage.image)

/-- COMMIT refuses with BAD_SLOT exactly when CARG holds 16 to 255, and then with BAD_FIELD exactly when one of the listed
conditions holds in the Stage (R17), written on the bytes. -/
def Obligations.CommitSlotAndFieldChecks : Prop :=
  ∀ s : State, Ready s → ∃ t, exec .commit s = .next t ∧
    (t.cmdst = .badSlot ↔ 16 ≤ s.carg.toNat) ∧
    (t.cmdst = .badField ↔ s.carg.toNat < 16 ∧
      let img := s.stage.image
      (img[1].toNat / 4 % 4 = 3 ∨ 5 ≤ img[2].toNat / 32 ∨ img[2].toNat % 2 = 1 ∨ 128 ≤ img[8].toNat ∨ 128 ≤ img[10].toNat ∨
       64 ≤ img[12].toNat ∨ img[14].toNat / 16 % 8 ≠ 0 ∨
       (img[0].toNat / 64 = 0 ∧ img[4].toNat = 0 ∧ img[5].toNat = 0)))

/-- When the slot and the fields pass, COMMIT refuses with BAD_WINDOW exactly when LOW is above HIGH or 2·HYST is above
HIGH − LOW, computed exactly on the Stage bytes (R18). -/
def Obligations.CommitWindowCheck : Prop :=
  ∀ (s : State) (c : TaskConfig), Ready s → s.carg.toNat < 16 → configOf s.stage.image = some c →
    let img := s.stage.image
    let low := 256 * img[8].toNat + img[9].toNat
    let high := 256 * img[10].toNat + img[11].toNat
    let hyst := 256 * img[12].toNat + img[13].toNat
    ∃ t, exec .commit s = .next t ∧ (t.cmdst = .badWindow ↔ ¬ (low ≤ high ∧ low + 2 * hyst ≤ high))

/-- When slot, fields and window pass, COMMIT refuses with LINK_LOOP exactly when the proposed link is present and its
target is the slot itself or leads back to it by stored links (R19), in a table that obeys law L6. -/
def Obligations.CommitLinkCheck : Prop :=
  ∀ (s : State) (n : Slot) (c : TaskConfig), Ready s → s.carg.toNat = n.val → configOf s.stage.image = some c →
    windowOk c = true → LinksAcyclic s.tasks →
    ∃ t, exec .commit s = .next t ∧
      (t.cmdst = .linkLoop ↔ ∃ m, c.link = some m ∧ (m = n ∨ ∃ k, followLinks s.tasks (k + 1) m = some n))

/-- When the earlier checks pass, COMMIT refuses with LOCKED exactly when the task is not STOPPED and a locked field
differs (R20). -/
def Obligations.CommitLockCheck : Prop :=
  ∀ (s : State) (n : Slot) (c : TaskConfig), Ready s → s.carg.toNat = n.val → configOf s.stage.image = some c →
    windowOk c = true → linkLoops s.tasks n c.link = false →
    let d := (s.task n).cfg
    ∃ t, exec .commit s = .next t ∧
      (t.cmdst = .locked ↔ (s.task n).rt.state ≠ .stopped ∧
        ¬ (c.mode = d.mode ∧ c.channel = d.channel ∧ c.res = d.res ∧ c.avg = d.avg ∧ c.policy = d.policy ∧
           c.settle = d.settle ∧ c.period = d.period ∧ c.phase = d.phase))

/-- A COMMIT that passes every check stores the configuration whole, sets the decimation count to 0 exactly when the record
mode or N changes, keeps the rest of the runtime part, and changes nothing else of the part but CMDST (R21). -/
def Obligations.CommitStoresConfiguration : Prop :=
  ∀ (s : State) (n : Slot) (c : TaskConfig), Ready s → s.carg.toNat = n.val → configOf s.stage.image = some c →
    windowOk c = true → linkLoops s.tasks n c.link = false → lockRefuses (s.task n) c = false →
    ∃ t, exec .commit s = .next t ∧ t = { s with tasks := t.tasks, cmdst := .ok, dataOut := none } ∧
      (∀ m, m ≠ n → t.task m = s.task m) ∧ (t.task n).cfg = c ∧
      (t.task n).rt = { (s.task n).rt with
        decCount := if c.recMode ≠ (s.task n).cfg.recMode ∨ c.decimation ≠ (s.task n).cfg.decimation then 0#4
                    else (s.task n).rt.decCount }

/-- LOAD followed by COMMIT of the same slot is accepted and changes nothing but the Stage and CMDST (R14, R21, law L7,
law L6): what LOAD writes passes every check. -/
def Obligations.CommitAfterLoadChangesNothing : Prop :=
  ∀ s : State, Ready s → s.carg.toNat < 16 → TableLaws s →
    ∃ t, runCommands [.load, .commit] s = .next t ∧
      t = { s with stage := t.stage, cmdst := .ok, dataOut := none } ∧ t.stage.ofs = 0

/-! ### Starting, stopping and due causes -/

/-- START (R44): refused with STATE unless STOPPED; otherwise ARMED with the countdown loaded from phase; a PERIODIC task
with phase 0 loads its period and is entered into the Run Queue by its priority. Where R44 says that it is taken at once,
the take is the event TAKE that follows (log entry 5). The equations are the whole next state but for the task table, whose
other slots and other fields do not change. -/
def Obligations.StartArmsOrQueues : Prop :=
  ∀ (s : State) (n : Slot), Ready s → s.carg.toNat = n.val →
    let t0 := s.task n
    (t0.rt.state ≠ .stopped →
      exec .start s = .next { s with cmdst := .state, sysLatch := { s.sysLatch with cmderr := true }, dataOut := none }) ∧
    (t0.rt.state = .stopped → ¬ (t0.cfg.mode = .periodic ∧ t0.cfg.phase = 0#16) →
      ∃ t, exec .start s = .next t ∧ t = { s with tasks := t.tasks, cmdst := .ok, dataOut := none } ∧
        (∀ m, m ≠ n → t.task m = s.task m) ∧
        t.task n = { t0 with rt := { t0.rt with state := .armed, countdown := t0.cfg.phase } }) ∧
    (t0.rt.state = .stopped → t0.cfg.mode = .periodic → t0.cfg.phase = 0#16 →
      ∃ t, exec .start s = .next t ∧
        t = { s with
              tasks := t.tasks
              runQueue := placeNormal { slot := n, rank := t0.cfg.priority.castSucc } s.runQueue
              cmdst := .ok, dataOut := none } ∧
        (∀ m, m ≠ n → t.task m = s.task m) ∧
        t.task n = { t0 with rt := { t0.rt with state := .queued, countdown := t0.cfg.period } })

/-- STOP (R45): STOPPED with zone UNKNOWN from every state; the Run Queue entry of a QUEUED task leaves and the rest keeps
its order; the conversion of a CONVERTING task is abandoned with the ABORT latch, which ends a halt in progress; everything
else is kept. Where R45 says that the unit takes the next head entry, that is the event TAKE that follows (log entry 5). -/
def Obligations.StopEndsTheTask : Prop :=
  ∀ (s : State) (n : Slot), Ready s → s.carg.toNat = n.val →
    let t0 := s.task n
    ∃ t, exec .stop s = .next t ∧
      (∀ m, m ≠ n → t.task m = s.task m) ∧
      t.task n = { t0 with rt := { t0.rt with state := .stopped, zone := .unknown } } ∧
      ((t0.rt.state = .stopped ∨ t0.rt.state = .armed) → t = { s with tasks := t.tasks, cmdst := .ok, dataOut := none }) ∧
      (t0.rt.state = .queued →
        t = { s with tasks := t.tasks, runQueue := s.runQueue.filter (fun e => e.slot ≠ n), cmdst := .ok,
                     dataOut := none }) ∧
      (t0.rt.state = .converting →
        t = { s with
              tasks := t.tasks, conv := none
              runState := if s.runState = .halting then .halted else s.runState
              sysLatch := { s.sysLatch with
                            abort := true
                            halted := s.sysLatch.halted || (s.runState == .halting) }
              cmdst := .ok, dataOut := none })

/-- TRIGGER (R33): CARG 16 to 255 is refused with BAD_SLOT; a STOPPED task refuses with STATE; an ARMED task is entered, at the head when CHAINED and by its priority
otherwise; a QUEUED or CONVERTING task counts a miss, saturating at 255, with the MISS latch (R32). -/
def Obligations.TriggerMakesTheTaskDue : Prop :=
  (∀ s : State, Ready s → 16 ≤ s.carg.toNat →
    exec .trigger s = .next { s with cmdst := .badSlot, sysLatch := { s.sysLatch with cmderr := true }, dataOut := none }) ∧
  (∀ (s : State) (n : Slot), Ready s → s.carg.toNat = n.val →
      let t0 := s.task n
      (t0.rt.state = .stopped →
        exec .trigger s = .next { s with cmdst := .state, sysLatch := { s.sysLatch with cmderr := true }, dataOut := none }) ∧
      (t0.rt.state = .armed →
        ∃ t, exec .trigger s = .next t ∧
          t = { s with
                tasks := t.tasks
                runQueue := if t0.cfg.mode = .chained then { slot := n, rank := 4 } :: s.runQueue
                            else placeNormal { slot := n, rank := t0.cfg.priority.castSucc } s.runQueue
                cmdst := .ok, dataOut := none } ∧
          (∀ m, m ≠ n → t.task m = s.task m) ∧ t.task n = { t0 with rt := { t0.rt with state := .queued } }) ∧
      ((t0.rt.state = .queued ∨ t0.rt.state = .converting) →
        ∃ t, exec .trigger s = .next t ∧
          t = { s with tasks := t.tasks, sysLatch := { s.sysLatch with miss := true }, cmdst := .ok, dataOut := none } ∧
          (∀ m, m ≠ n → t.task m = s.task m) ∧
          t.task n = { t0 with rt := { t0.rt with
            missCount := if t0.rt.missCount = 255#8 then 255#8 else t0.rt.missCount + 1#8 } }))

/-- A normal entry of rank p stands behind every entry of rank p or higher and ahead of every entry of lower rank, the rest
keeping its order; in an empty Run Queue it is the only entry. Its rank is the priority the task holds when the entry is
made; a COMMIT leaves the Run Queue as it was (R39). -/
def Obligations.NormalEntryPlacement : Prop :=
  (∀ (e : RunEntry) (q : List RunEntry), q.Pairwise (fun a b => b.rank ≤ a.rank) →
    ∃ ahead behind, q = ahead ++ behind ∧ placeNormal e q = ahead ++ e :: behind ∧
      (∀ x ∈ ahead, e.rank ≤ x.rank) ∧ (∀ x ∈ behind, x.rank < e.rank)) ∧
  (∀ e : RunEntry, placeNormal e [] = [e]) ∧
  (∀ (s : State) (n : Slot), (s.task n).rt.state = .armed →
    (makeDue .normal n s).runQueue = placeNormal { slot := n, rank := (s.task n).cfg.priority.castSucc } s.runQueue) ∧
  (∀ s t : State, exec .commit s = .next t → t.runQueue = s.runQueue)

/-- HALT and RESUME return OK in every case. HALT: HALTED at once with the HALTED latch when IDLE, HALTING when not, no
change when already halting or halted (R49). RESUME: RUNNING from every run state, no latch set (R51; where R51 says that the
unit takes the head entry, that is the event TAKE that follows, log entry 5). -/
def Obligations.HaltAndResumeSetTheRunState : Prop :=
  ∀ s : State, Ready s →
    (s.runState = .running → s.conv = none →
      exec .halt s = .next { s with runState := .halted, sysLatch := { s.sysLatch with halted := true }, cmdst := .ok,
                                    dataOut := none }) ∧
    (s.runState = .running → s.conv ≠ none →
      exec .halt s = .next { s with runState := .halting, cmdst := .ok, dataOut := none }) ∧
    (s.runState ≠ .running → exec .halt s = .next { s with cmdst := .ok, dataOut := none }) ∧
    exec .resume s = .next { s with runState := .running, cmdst := .ok, dataOut := none }

/-! ### The Tick Timer and the TRIG input -/

/-- One expiry of the Tick Timer (R25, R27, R29, R30, R37): the period begun takes TICKDIV, the Tick Counter rises by one;
outside RUNNING nothing else moves; while RUNNING the countdown of every active PERIODIC task falls by one, and at 0 is
reloaded and the task made due, the entries made in ascending slot order; no other task and nothing else changes. That TICK
itself makes the tasks due, as COUNTDOWN_EXPIRY does, is the model's reading (log entry 4). -/
def Obligations.TickMovesCountdowns : Prop :=
  ∀ s : State, Ready s →
    (s.runState ≠ .running →
      exec .tick s = .next { s with tickPeriod := s.tickDiv, tickCount := s.tickCount + 1#16 }) ∧
    (s.runState = .running →
      let active := fun n : Slot => (s.task n).cfg.mode = .periodic ∧ (s.task n).rt.state ≠ .stopped
      let due := fun n : Slot => active n ∧ (s.task n).rt.countdown = 1#16
      let missed := fun n : Slot => due n ∧ (s.task n).rt.state ≠ .armed
      ∃ t, exec .tick s = .next t ∧
        t = { s with
              tasks := t.tasks
              tickPeriod := s.tickDiv, tickCount := s.tickCount + 1#16
              runQueue := (allSlots.filter fun n => decide (due n ∧ (s.task n).rt.state = .armed)).foldl
                (fun q n => placeNormal { slot := n, rank := (s.task n).cfg.priority.castSucc } q) s.runQueue
              sysLatch := t.sysLatch } ∧
        t.sysLatch = { s.sysLatch with miss := s.sysLatch.miss || decide (∃ n, missed n) } ∧
        ∀ n : Slot,
          (¬ active n → t.task n = s.task n) ∧
          (active n → ¬ due n →
            t.task n = { s.task n with rt := { (s.task n).rt with countdown := (s.task n).rt.countdown - 1#16 } }) ∧
          (due n → (s.task n).rt.state = .armed →
            t.task n = { s.task n with
              rt := { (s.task n).rt with state := .queued, countdown := (s.task n).cfg.period } }) ∧
          (missed n →
            t.task n = { s.task n with
              rt := { (s.task n).rt with
                countdown := (s.task n).cfg.period
                missCount := if (s.task n).rt.missCount = 255#8 then 255#8 else (s.task n).rt.missCount + 1#8 } }))

/-- COUNTDOWN_EXPIRY of slot n (R29): when n is an active PERIODIC task whose countdown stands at 1 while RUNNING, the
expiry reloads its countdown with its period and makes it due: an ARMED task is QUEUED with an entry of its priority, a
busy one counts a miss. That one command stands for the whole expiry is the model's reading (log entry 4). -/
def Obligations.CountdownExpiryMakesTaskDue : Prop :=
  ∀ (s : State) (n : Slot), Ready s → s.runState = .running → (s.task n).cfg.mode = .periodic →
    (s.task n).rt.countdown = 1#16 → (s.task n).rt.state ≠ .stopped →
    ∃ t, exec (.countdownExpiry n) s = .next t ∧ exec .tick s = .next t ∧
      (t.task n).rt.countdown = (s.task n).cfg.period ∧
      ((s.task n).rt.state = .armed →
        (t.task n).rt.state = .queued ∧
        ∃ e ∈ t.runQueue, e.slot = n ∧ e.rank = (s.task n).cfg.priority.castSucc) ∧
      ((s.task n).rt.state ≠ .armed →
        (t.task n).rt.state = (s.task n).rt.state ∧ t.sysLatch.miss = true ∧
        (t.task n).rt.missCount = if (s.task n).rt.missCount = 255#8 then 255#8 else (s.task n).rt.missCount + 1#8)

/-- A recognised edge on TRIG (R34, R35, R37): the reference takes the other level; an edge that TRIGCFG makes qualify makes
every EXTERNAL task due in ascending slot order; any other edge changes nothing else. -/
def Obligations.TrigEdgeReachesExternalTasks : Prop :=
  ∀ s : State, Ready s →
    let rising := s.trigRef = .low
    let new := if s.trigRef = .low then Level.high else Level.low
    let qualifies := s.trigCfg = .both ∨ (s.trigCfg = .rise ∧ rising) ∨ (s.trigCfg = .fall ∧ ¬ rising)
    (¬ qualifies → exec (.trigEdge .full) s = .next { s with trigRef := new }) ∧
    (qualifies →
      let reached := fun n : Slot => (s.task n).cfg.mode = .external
      let missed := fun n : Slot => reached n ∧ ((s.task n).rt.state = .queued ∨ (s.task n).rt.state = .converting)
      ∃ t, exec (.trigEdge .full) s = .next t ∧
        t = { s with
              tasks := t.tasks, trigRef := new
              runQueue := (allSlots.filter fun n => decide (reached n ∧ (s.task n).rt.state = .armed)).foldl
                (fun q n => placeNormal { slot := n, rank := (s.task n).cfg.priority.castSucc } q) s.runQueue
              sysLatch := t.sysLatch } ∧
        t.sysLatch = { s.sysLatch with miss := s.sysLatch.miss || decide (∃ n, missed n) } ∧
        ∀ n : Slot,
          ((¬ reached n ∨ (s.task n).rt.state = .stopped) → t.task n = s.task n) ∧
          (reached n → (s.task n).rt.state = .armed →
            t.task n = { s.task n with rt := { (s.task n).rt with state := .queued } }) ∧
          (missed n →
            t.task n = { s.task n with
              rt := { (s.task n).rt with
                missCount := if (s.task n).rt.missCount = 255#8 then 255#8 else (s.task n).rt.missCount + 1#8 } }))

/-! ### The Conversion Unit -/

/-- The take (R42, R57): from IDLE, RUNNING, with an entry at the head, the entry leaves, its task becomes CONVERTING, the
parameters are copied, the counts start at 0, and the working gain is the policy's or, under AUTO, the stored one. When a
condition fails there is no take (the form of that is log entry 3). -/
def Obligations.TakeStartsAConversion : Prop :=
  ∀ s : State, Ready s →
    (∀ (e : RunEntry) (rest : List RunEntry), s.conv = none → s.runState = .running → s.runQueue = e :: rest →
      let c := (s.task e.slot).cfg
      ∃ t, exec .take s = .next t ∧
        t = { s with
              tasks := t.tasks, runQueue := rest
              conv := some
                { phase := .settling, slot := e.slot
                  params := { channel := c.channel, res := c.res, avg := c.avg, policy := c.policy, settle := c.settle }
                  workingGain := match c.policy with
                    | .fix1 => .x1
                    | .fix2 => .x2
                    | .fix4 => .x4
                    | .fix8 => .x8
                    | .auto => (s.task e.slot).rt.gain
                  coarse := none, samples := 0, sum := 0, overSeen := false } } ∧
        (∀ m, m ≠ e.slot → t.task m = s.task m) ∧
        t.task e.slot = { s.task e.slot with rt := { (s.task e.slot).rt with state := .converting } } ∧
        (readRegister 0x03#5 t).toNat = e.slot.val ∧ muxSelection t = some c.channel) ∧
    ((s.conv ≠ none ∨ s.runState ≠ .running ∨ s.runQueue = []) → exec .take s = .next s)

/-- The settling allowance lasts 8 × (settle + 1) CLK periods; at its end the unit enters RANGING under AUTO and SAMPLING
under a fixed policy, everything else as it was (R58). When the coarse conversion ends the decided gain becomes the working
gain, the coarse value is kept and the unit enters SAMPLING; the stored current gain is not written (R60). -/
def Obligations.SettlingAndRangingEnd : Prop :=
  ∀ (s : State) (c : Conversion) (v : BitVec 6), Ready s → s.conv = some c →
    (c.phase = .settling →
      settlingLength c.params.settle = 8 * (c.params.settle.val + 1) ∧
      exec .settlingExpiry s = .next { s with
        conv := some { c with phase := if c.params.policy = .auto then .ranging else .sampling } }) ∧
    (c.phase = .ranging →
      exec (.coarseConversionEnd v) s = .next { s with
        conv := some { c with phase := .sampling, coarse := some v, workingGain := autoGain v c.workingGain } })

/-- The gain steps down exactly when the product is above 55, to the largest lower gain whose product is at most 55, or to
×1; otherwise it steps up to the largest higher gain whose product is at most 39, or stays (R76, R77, R78). -/
def Obligations.AutoGainStepsByThresholds : Prop :=
  ∀ (c : BitVec 6) (g : Gain),
    let fits := fun x : Gain => x.factor < g.factor ∧ c.toNat * x.factor ≤ 55
    let rises := fun x : Gain => g.factor < x.factor ∧ c.toNat * x.factor ≤ 39
    (55 < c.toNat * g.factor →
      ((∃ x, fits x) → fits (autoGain c g) ∧ ∀ x, fits x → x.factor ≤ (autoGain c g).factor) ∧
      ((¬ ∃ x, fits x) → autoGain c g = .x1)) ∧
    (c.toNat * g.factor ≤ 55 →
      ((∃ x, rises x) → rises (autoGain c g) ∧ ∀ x, rises x → x.factor ≤ (autoGain c g).factor) ∧
      ((¬ ∃ x, rises x) → autoGain c g = g))

/-- A sample that is not the A-th adds its code, at most full scale and full scale when it overscales, to the sum; samples
taken rises by one; overscale seen stays once set (R61, R62). A code above full scale cannot occur (log entry 13). -/
def Obligations.SampleAccumulates : Prop :=
  ∀ (s : State) (c : Conversion) (code : BitVec 12) (o : Bool), Ready s → s.conv = some c → c.phase = .sampling →
    c.samples + 1 < c.params.avg.count → (o = false → code.toNat ≤ 2 ^ c.params.res.width - 1) →
    exec (.sample code o) s = .next { s with
      conv := some { c with
        samples := c.samples + 1
        sum := c.sum + (if o then 2 ^ c.params.res.width - 1 else code.toNat)
        overSeen := c.overSeen || o } }

/-! ### Delivery -/

/-- The A-th sample completes the conversion (R46, R63, R64, R65, R66, R67, R95): the unit is IDLE, and the delivering task
holds the averaged code, N = code · 2^(12 − res) · 8 / gain, OVER, the gain used, the evaluated zone, whether it fired, and
STOPPED or ARMED; its countdown and configuration are kept. The premise on the sum rules out sums no conversion reaches; a
link to itself is ruled out by law L6. -/
def Obligations.DeliveryStoresResult : Prop :=
  ∀ (s : State) (c : Conversion) (code : BitVec 12) (o : Bool), Ready s → s.conv = some c → c.phase = .sampling →
    c.samples + 1 = c.params.avg.count → c.sum ≤ c.samples * c.params.res.fullScale →
    (s.task c.slot).cfg.link ≠ some c.slot → (o = false → code.toNat ≤ 2 ^ c.params.res.width - 1) →
    let t0 := s.task c.slot
    let a := c.params.avg.count
    let mean := (c.sum + (if o then 2 ^ c.params.res.width - 1 else code.toNat)) / a
    let nval := mean * 2 ^ (12 - c.params.res.width) * (8 / c.workingGain.factor)
    let zone := evaluateZone t0.cfg t0.rt.zone nval (c.overSeen || o)
    ∃ t, exec (.delivery code o) s = .next t ∧ t.conv = none ∧ curtask t = 0xFF#8 ∧
      (t.task c.slot).cfg = t0.cfg ∧
      (t.task c.slot).rt.lastCode.toNat = mean ∧
      (t.task c.slot).rt.lastN.toNat = nval ∧
      (t.task c.slot).rt.lastOver = (c.overSeen || o) ∧
      (t.task c.slot).rt.gain = c.workingGain ∧
      (t.task c.slot).rt.zone = zone ∧
      (t.task c.slot).rt.lastFired = entryFires t0.cfg t0.rt.zone zone ∧
      (t.task c.slot).rt.state = (if t0.cfg.single then .stopped else .armed) ∧
      (t.task c.slot).rt.countdown = t0.rt.countdown

/-- What a delivery leaves alone: every task but the delivering one and its link target, every configuration, the Stage, the
Scheduler's timers and TRIG, the enables, CARG, CMDST, the bus, and the latches a delivery does not own; a task latch other
than the delivering task's does not change, and that one is set exactly when the result fires (R66, R96, R140, R141). -/
def Obligations.DeliveryFrame : Prop :=
  ∀ (s : State) (c : Conversion) (code : BitVec 12) (o : Bool), Ready s → s.conv = some c → c.phase = .sampling →
    c.samples + 1 = c.params.avg.count → (s.task c.slot).cfg.link ≠ some c.slot →
    ∃ t, exec (.delivery code o) s = .next t ∧
      (∀ n, (t.task n).cfg = (s.task n).cfg) ∧
      (∀ n, n ≠ c.slot → (s.task c.slot).cfg.link ≠ some n → t.task n = s.task n) ∧
      t = { s with tasks := t.tasks, conv := none, rq := t.rq, runQueue := t.runQueue, runState := t.runState
                   taskLatch := t.taskLatch, sysLatch := t.sysLatch } ∧
      t.sysLatch.qunder = s.sysLatch.qunder ∧ t.sysLatch.abort = s.sysLatch.abort ∧
      t.sysLatch.cmderr = s.sysLatch.cmderr ∧
      (∀ n : Slot, t.taskLatch.getLsbD n.val =
        (s.taskLatch.getLsbD n.val || (decide (n = c.slot) && (t.task c.slot).rt.lastFired)))

/-- The Scheduler's part of a delivery (R36, R46, R50): an absent link changes no entry; a present link's target is entered
at the head when ARMED, counts a miss when QUEUED, is left alone when STOPPED; a halt in progress ends with the HALTED
latch. -/
def Obligations.DeliveryFollowsLinkAndEndsHalt : Prop :=
  ∀ (s : State) (c : Conversion) (code : BitVec 12) (o : Bool), Ready s → s.conv = some c → c.phase = .sampling →
    c.samples + 1 = c.params.avg.count →
    ∃ t, exec (.delivery code o) s = .next t ∧
      t.runState = (if s.runState = .halting then .halted else s.runState) ∧
      t.sysLatch.halted = (s.sysLatch.halted || (s.runState == .halting)) ∧
      ((s.task c.slot).cfg.link = none → t.runQueue = s.runQueue ∧ t.sysLatch.miss = s.sysLatch.miss) ∧
      (∀ m, (s.task c.slot).cfg.link = some m → m ≠ c.slot →
        ((s.task m).rt.state = .armed →
          t.runQueue = { slot := m, rank := 4 } :: s.runQueue ∧ t.sysLatch.miss = s.sysLatch.miss ∧
          t.task m = { s.task m with rt := { (s.task m).rt with state := .queued } }) ∧
        ((s.task m).rt.state = .queued →
          t.runQueue = s.runQueue ∧ t.sysLatch.miss = true ∧
          t.task m = { s.task m with rt := { (s.task m).rt with
            missCount := if (s.task m).rt.missCount = 255#8 then 255#8 else (s.task m).rt.missCount + 1#8 } }) ∧
        ((s.task m).rt.state = .stopped →
          t.runQueue = s.runQueue ∧ t.sysLatch.miss = s.sysLatch.miss ∧ t.task m = s.task m))

/-- The Record Builder's part of a delivery (R103, R104, R105, R107, R108, R109): which results make a record, the
decimation count, the composed record with its stamp and miss parts, and the miss count set to 0 by the offer; the queue
takes the record by an insertion, and QOVER is set exactly when that insertion does not simply store (R125). -/
def Obligations.DeliveryOffersRecord : Prop :=
  ∀ (s : State) (c : Conversion) (code : BitVec 12) (o : Bool), Ready s → s.conv = some c → c.phase = .sampling →
    c.samples + 1 = c.params.avg.count → (s.task c.slot).cfg.link ≠ some c.slot →
    let t0 := s.task c.slot
    ∃ t, exec (.delivery code o) s = .next t ∧
      let r := (t.task c.slot).rt
      let kept := t0.cfg.recMode = .always ∨ (t0.cfg.recMode = .onEvent ∧ r.lastFired = true) ∨
        (t0.cfg.recMode = .everyN ∧ t0.rt.decCount.toNat + 1 = t0.cfg.decimation)
      let record : RecordBody :=
        { slot := c.slot, zone := r.zone, evt := r.lastFired, overFlag := r.lastOver, gain := r.gain
          res := c.params.res, code := r.lastCode
          stamp := if t0.cfg.stamp then some s.tickCount else none
          miss := if t0.rt.missCount = 0#8 then none else some t0.rt.missCount }
      (t0.cfg.recMode ≠ .everyN → r.decCount = t0.rt.decCount) ∧
      (t0.cfg.recMode = .everyN → kept → r.decCount = 0#4) ∧
      (t0.cfg.recMode = .everyN → ¬ kept → r.decCount = t0.rt.decCount + 1#4) ∧
      (kept → t.rq = insertRecord record s.rq ∧ r.missCount = 0#8 ∧
        (courseOf s.rq record = .store → t.sysLatch.qover = s.sysLatch.qover) ∧
        (courseOf s.rq record ≠ .store → t.sysLatch.qover = true) ∧
        t.sysLatch.qready = (s.sysLatch.qready || decide (s.rq.watermark ≠ 0#5 ∧
          s.rq.rqrecs < s.rq.watermark.toNat ∧ s.rq.watermark.toNat ≤ t.rq.rqrecs))) ∧
      (¬ kept → t.rq = s.rq ∧ r.missCount = t0.rt.missCount ∧ t.sysLatch.qover = s.sysLatch.qover ∧
        t.sysLatch.qready = s.sysLatch.qready)

/-- Zone evaluation in a valid window, as the table of zone transitions gives it (R88, R89, R90, R91, R92). A change of zone
fires exactly when the kind's enable is 1 and, from UNKNOWN, the first-zone bit is 1 too; no change does not fire
(R93, R94). -/
def Obligations.ZonesAndEntriesFollowTheTable : Prop :=
  ∀ (c : TaskConfig) (n : Nat), ConfigValid c →
    let low := c.low.toNat
    let high := c.high.toNat
    let hyst := c.hyst.toNat
    (∀ z, evaluateZone c z n true = .above) ∧
    (∀ z, n < low → evaluateZone c z n false = .below) ∧
    (∀ z, high < n → evaluateZone c z n false = .above) ∧
    (low ≤ n → n ≤ high → evaluateZone c .unknown n false = .inside ∧ evaluateZone c .inside n false = .inside) ∧
    (low ≤ n → n + hyst ≤ high → evaluateZone c .above n false = .inside) ∧
    (high < n + hyst → n ≤ high → evaluateZone c .above n false = .above) ∧
    (low ≤ n → n < low + hyst → evaluateZone c .below n false = .below) ∧
    (low + hyst ≤ n → n ≤ high → evaluateZone c .below n false = .inside) ∧
    (∀ z w : Zone, w ≠ .unknown →
      (entryFires c z w = true ↔ z ≠ w ∧ (z = .unknown → c.firstZone = true) ∧
        ((w = .above ∧ c.enAbove = true) ∨ (w = .inside ∧ c.enInside = true) ∨ (w = .below ∧ c.enBelow = true))))

/-- N of every code within its resolution is at most 32760 and a whole multiple of the multiplier the table gives
(R82, R83). -/
def Obligations.NormalisedValueInRange : Prop :=
  ∀ (code : BitVec 12) (r : Resolution) (g : Gain), code.toNat ≤ r.fullScale →
    normalise code r g ≤ 32760 ∧
    normalise code r g * g.factor * 2 ^ r.width = code.toNat * 32768 ∧
    normalise 4095#12 .bits12 .x1 = 32760

/-! ### Records and the Result Queue -/

/-- The bytes of a stored record, as the layout gives them, written as numbers; its length is the number of its bytes
(R111, R113). -/
def Obligations.RecordLayout : Prop :=
  (∀ (seq lost : Byte), (QRecord.gap seq lost).bytes = [0x80#8, seq, lost] ∧ (QRecord.gap seq lost).length = 3) ∧
  (∀ (seq : Byte) (b : RecordBody),
    (QRecord.result seq b).bytes.length = (QRecord.result seq b).length ∧
    (QRecord.result seq b).length = 5 + (if b.stamp = none then 0 else 2) + (if b.miss = none then 0 else 1) ∧
    ∃ (h f c1 c0 : Byte) (rest : List Byte),
      (QRecord.result seq b).bytes = h :: seq :: f :: c1 :: c0 :: rest ∧
      h.toNat = 64 + (if b.stamp = none then 0 else 32) + (if b.miss = none then 0 else 16) + b.slot.val ∧
      f.toNat = 64 * (match b.zone with
          | .unknown => 0
          | .below => 1
          | .inside => 2
          | .above => 3)
        + 32 * b.evt.toNat + 16 * b.overFlag.toNat
        + 4 * (match b.gain with
          | .x1 => 0
          | .x2 => 1
          | .x4 => 2
          | .x8 => 3)
        + (match b.res with
          | .bits8 => 0
          | .bits10 => 1
          | .bits12 => 2) ∧
      256 * c1.toNat + c0.toNat = b.code.toNat ∧
      (∀ w m, b.stamp = some w → b.miss = some m →
        ∃ h1 h0 : Byte, rest = [h1, h0, m] ∧ 256 * h1.toNat + h0.toNat = w.toNat) ∧
      (∀ w, b.stamp = some w → b.miss = none →
        ∃ h1 h0 : Byte, rest = [h1, h0] ∧ 256 * h1.toNat + h0.toNat = w.toNat) ∧
      (∀ m, b.stamp = none → b.miss = some m → rest = [m]) ∧
      (b.stamp = none → b.miss = none → rest = []))

/-- An insertion stores, evicts and stores, or drops as the space and the policy say (R119, R120, R121, R122, R123): the
evictions take the fewest records from the oldest end that make room, LOSTCNT rises by their number, saturating; a stored
record takes the next number, behind a GAP record with the pending count when one is pending; a dropped record raises the
two saturating counts and nothing else. The state of the queue is one the laws allow. -/
def Obligations.InsertionStoresEvictsOrDrops : Prop :=
  ∀ (q : ResultQueue) (b : RecordBody), QueueLaws q →
    let need := b.length + (if q.pendingGap = 0#8 then 0 else 3)
    let q' := insertRecord b q
    let added : List QRecord := if q.pendingGap = 0#8 then [.result q.nextSeq b]
      else [.gap q.nextSeq q.pendingGap, .result (q.nextSeq + 1#8) b]
    let fits := need ≤ 128 - bytesOf q.records
    let stored := fun k : Nat =>
      q'.records = q.records.drop k ++ added ∧ q'.nextSeq = q.nextSeq + BitVec.ofNat 8 added.length ∧
      q'.pendingGap = 0#8 ∧ q'.readIndex = q.readIndex ∧ q'.policy = q.policy ∧ q'.watermark = q.watermark
    (fits → stored 0 ∧ q'.lostcnt = q.lostcnt) ∧
    (¬ fits → q.policy = .overwrite → q.readIndex = none →
      ∃ k, 0 < k ∧ k ≤ q.records.length ∧ stored k ∧ need ≤ 128 - bytesOf (q.records.drop k) ∧
        (∀ j, j < k → 128 - bytesOf (q.records.drop j) < need) ∧
        q'.lostcnt.toNat = min 255 (q.lostcnt.toNat + k)) ∧
    (¬ fits → (q.policy = .dropNew ∨ q.readIndex ≠ none) →
      q' = { q with
             pendingGap := if q.pendingGap = 255#8 then 255#8 else q.pendingGap + 1#8
             lostcnt := if q.lostcnt = 255#8 then 255#8 else q.lostcnt + 1#8 })

/-- One read of RQDATA: it opens the oldest record and returns its header (R128), or returns the byte of the open record at
the read index and moves on, retiring the record at its last byte (R129), or is an empty read that returns FFh and sets
QUNDER (R130). -/
def Obligations.RqdataReadOpensAdvancesRetires : Prop :=
  ∀ s : State, Ready s →
    (s.rq.records = [] → s.rq.readIndex = none →
      exec .rqdataRead s = .next { s with sysLatch := { s.sysLatch with qunder := true }, dataOut := some 0xFF#8 }) ∧
    (∀ r rs, s.rq.records = r :: rs → s.rq.readIndex = none →
      ∃ h, r.bytes.head? = some h ∧
        exec .rqdataRead s = .next { s with rq := { s.rq with readIndex := some 1 }, dataOut := some h }) ∧
    (∀ r rs i b, s.rq.records = r :: rs → s.rq.readIndex = some i → r.bytes[i]? = some b →
      (i + 1 < r.bytes.length →
        exec .rqdataRead s = .next { s with rq := { s.rq with readIndex := some (i + 1) }, dataOut := some b }) ∧
      (i + 1 = r.bytes.length →
        exec .rqdataRead s = .next { s with rq := { s.rq with records := rs, readIndex := none }, dataOut := some b }))

/-- A record read from its header to its end is returned byte by byte, each once and in order, and its last byte retires it
(R128, R129), whatever was stored behind it. -/
def Obligations.ReadingARecordReturnsItsBytes : Prop :=
  ∀ (s : State) (r : QRecord) (rs : List QRecord), Ready s → s.rq.records = r :: rs → s.rq.readIndex = none →
    (∀ (k : Nat) (b : Byte), r.bytes[k]? = some b →
      ∃ t, runCommands (List.replicate (k + 1) .rqdataRead) s = .next t ∧ t.dataOut = some b) ∧
    (∃ t, runCommands (List.replicate r.length .rqdataRead) s = .next t ∧
      t = { s with rq := { s.rq with records := rs }, dataOut := t.dataOut })

/-- DISCARD removes the open or the oldest record whole, or is refused with EMPTY (R132). FLUSH removes every record and the
pending gap, keeps the numbering, LOSTCNT, the policy and the watermark, sets no latch and is OK in every case (R133). -/
def Obligations.DiscardAndFlushRemoveRecords : Prop :=
  ∀ s : State, Ready s →
    (∀ r rs, s.rq.records = r :: rs →
      exec .discard s =
        .next { s with rq := { s.rq with records := rs, readIndex := none }, cmdst := .ok, dataOut := none }) ∧
    (s.rq.records = [] →
      exec .discard s =
        .next { s with cmdst := .empty, sysLatch := { s.sysLatch with cmderr := true }, dataOut := none }) ∧
    exec .flush s = .next { s with
      rq := { s.rq with records := [], readIndex := none, pendingGap := 0#8 }, cmdst := .ok, dataOut := none }

/-! ### Latches, enables, plain registers -/

/-- A read of TLATL, TLATH or SLAT returns its latches (and TSUM) and clears exactly the latches it returned as 1; the
latches of the other two registers stay. A read of LOSTCNT returns it and sets it to 0 in the same step. Nothing else
changes (R124, R143, R144). -/
def Obligations.ClearingReadsReturnAndClear : Prop :=
  ∀ s : State, Ready s →
    (∃ (b : Byte) (l : Word16), exec (.taskLatchRead .tlatl) s = .next { s with taskLatch := l, dataOut := some b } ∧
      ∀ n : Slot, (n.val < 8 → b.getLsbD n.val = s.taskLatch.getLsbD n.val ∧ l.getLsbD n.val = false) ∧
        (8 ≤ n.val → l.getLsbD n.val = s.taskLatch.getLsbD n.val)) ∧
    (∃ (b : Byte) (l : Word16), exec (.taskLatchRead .tlath) s = .next { s with taskLatch := l, dataOut := some b } ∧
      ∀ n : Slot, (8 ≤ n.val → b.getLsbD (n.val - 8) = s.taskLatch.getLsbD n.val ∧ l.getLsbD n.val = false) ∧
        (n.val < 8 → l.getLsbD n.val = s.taskLatch.getLsbD n.val)) ∧
    (∃ b : Byte,
      exec .slatRead s = .next { s with
        sysLatch := { qready := false, qover := false, qunder := false, miss := false, abort := false, halted := false,
                      cmderr := false }
        dataOut := some b } ∧
      b.getLsbD 0 = s.sysLatch.qready ∧ b.getLsbD 1 = s.sysLatch.qover ∧ b.getLsbD 2 = s.sysLatch.qunder ∧
      b.getLsbD 3 = s.sysLatch.miss ∧ b.getLsbD 4 = s.sysLatch.abort ∧ b.getLsbD 5 = s.sysLatch.halted ∧
      b.getLsbD 6 = s.sysLatch.cmderr ∧ (b.getLsbD 7 = true ↔ ∃ n : Slot, s.taskLatch.getLsbD n.val = true)) ∧
    exec .lostcntRead s = .next { s with rq := { s.rq with lostcnt := 0#8 }, dataOut := some s.rq.lostcnt }

/-- The part pulls IRQ# low exactly when some task latch or one of system latches 0 to 6 is 1 together with its enable
(law L8, R146); SEN bit 7 has no part in it. -/
def Obligations.IrqLowExactlyOnEnabledLatch : Prop :=
  ∀ s : State, s.held = false →
    (irqLow s = true ↔
      (∃ n : Slot, s.taskLatch.getLsbD n.val = true ∧ s.taskEnable.getLsbD n.val = true) ∨
      (s.sysLatch.qready = true ∧ s.sysEnable.getLsbD 0 = true) ∨ (s.sysLatch.qover = true ∧ s.sysEnable.getLsbD 1 = true) ∨
      (s.sysLatch.qunder = true ∧ s.sysEnable.getLsbD 2 = true) ∨ (s.sysLatch.miss = true ∧ s.sysEnable.getLsbD 3 = true) ∨
      (s.sysLatch.abort = true ∧ s.sysEnable.getLsbD 4 = true) ∨
      (s.sysLatch.halted = true ∧ s.sysEnable.getLsbD 5 = true) ∨
      (s.sysLatch.cmderr = true ∧ s.sysEnable.getLsbD 6 = true))

/-- A read of TICKL returns the low byte of the Tick Counter and copies the high byte into the holding register, which TICKH
returns; writes to either are ignored (R28). -/
def Obligations.TicklReadCapturesHighByte : Prop :=
  ∀ (s : State) (v : Byte), Ready s →
    (∃ lo hi : Byte, 256 * hi.toNat + lo.toNat = s.tickCount.toNat ∧
      exec .ticklRead s = .next { s with tickHold := hi, dataOut := some lo }) ∧
    readRegister 0x15#5 s = s.tickHold ∧
    exec (.registerWrite 0x14#5 v) s = .next { s with dataOut := none } ∧
    exec (.registerWrite 0x15#5 v) s = .next { s with dataOut := none }

/-- A register write stores the used bits of v in the field that the register shows, which a read then returns with the
unused bits 0, and is ignored at every read-only or unmapped position (R26, R34, R135, R147, R152, R153, R159). -/
def Obligations.RegisterWriteStoresUsedBits : Prop :=
  ∀ (s : State) (v : Byte), Ready s →
    (∃ t, exec (.registerWrite 0x01#5 v) s = .next t ∧ t = { s with carg := v, dataOut := none } ∧
      readRegister 0x01#5 t = v) ∧
    (∃ (t : State) (w : BitVec 5), exec (.registerWrite 0x0A#5 v) s = .next t ∧ w.toNat = v.toNat % 32 ∧
      t = { s with rq := { s.rq with policy := if 128 ≤ v.toNat then .overwrite else .dropNew, watermark := w }
                   dataOut := none } ∧
      readRegister 0x0A#5 t = v &&& 0x9F#8) ∧
    (∃ (t : State) (e : Word16), exec (.registerWrite 0x0F#5 v) s = .next t ∧
      t = { s with taskEnable := e, dataOut := none } ∧
      (∀ n : Slot, e.getLsbD n.val = if n.val < 8 then v.getLsbD n.val else s.taskEnable.getLsbD n.val) ∧
      readRegister 0x0F#5 t = v ∧ readRegister 0x10#5 t = readRegister 0x10#5 s) ∧
    (∃ (t : State) (e : Word16), exec (.registerWrite 0x10#5 v) s = .next t ∧
      t = { s with taskEnable := e, dataOut := none } ∧
      (∀ n : Slot, e.getLsbD n.val = if 8 ≤ n.val then v.getLsbD (n.val - 8) else s.taskEnable.getLsbD n.val) ∧
      readRegister 0x10#5 t = v ∧ readRegister 0x0F#5 t = readRegister 0x0F#5 s) ∧
    (∃ t, exec (.registerWrite 0x11#5 v) s = .next t ∧ t = { s with sysEnable := v, dataOut := none } ∧
      readRegister 0x11#5 t = v) ∧
    (∃ (t : State) (d : Word16), exec (.registerWrite 0x12#5 v) s = .next t ∧
      t = { s with tickDiv := d, dataOut := none } ∧
      d.toNat = 256 * (s.tickDiv.toNat / 256) + v.toNat ∧
      readRegister 0x12#5 t = v ∧ readRegister 0x13#5 t = readRegister 0x13#5 s) ∧
    (∃ (t : State) (d : Word16), exec (.registerWrite 0x13#5 v) s = .next t ∧
      t = { s with tickDiv := d, dataOut := none } ∧
      d.toNat = 256 * v.toNat + s.tickDiv.toNat % 256 ∧
      readRegister 0x13#5 t = v ∧ readRegister 0x12#5 t = readRegister 0x12#5 s) ∧
    (∃ (t : State) (c : TrigSetting), exec (.registerWrite 0x16#5 v) s = .next t ∧
      t = { s with trigCfg := c, dataOut := none } ∧
      (v.toNat % 4 = 0 → c = .off) ∧ (v.toNat % 4 = 1 → c = .rise) ∧ (v.toNat % 4 = 2 → c = .fall) ∧
      (v.toNat % 4 = 3 → c = .both) ∧ readRegister 0x16#5 t = v &&& 0x03#8) ∧
    (∀ a : Addr, a.toNat ∉ [0x00, 0x01, 0x05, 0x06, 0x0A, 0x0F, 0x10, 0x11, 0x12, 0x13, 0x16] →
      exec (.registerWrite a v) s = .next { s with dataOut := none })

/-! ### The laws of the part -/

/-- The state after reset obeys every law. -/
def Obligations.ResetObeysPartLaws : Prop := PartLaws State.reset

/-- Every step keeps the laws of the Scheduler (L1, L2, L9 and the order of ranks: R38, R42, R48), from every state that
obeys them. -/
def Obligations.StepKeepsSchedulerLaws : Prop :=
  ∀ s t : State, SchedulerLaws s → step s = .next t → SchedulerLaws t

/-- Every step keeps every configuration valid (L7, R4) and the links free of cycles (L6, R19). -/
def Obligations.StepKeepsTableLaws : Prop := ∀ s t : State, TableLaws s → step s = .next t → TableLaws t

/-- Every step keeps the laws of the Result Queue (L3, L4, L5, L11: R117, R118, R127, R111, R114). -/
def Obligations.StepKeepsQueueLaws : Prop := ∀ s t : State, QueueLaws s.rq → step s = .next t → QueueLaws t.rq

/-- Every step keeps all the laws of the part together, those of the Conversion Unit (L10, R55 to R63) and of the runtime
parts (R29, R83, R105, R106) among them. -/
def Obligations.StepKeepsPartLaws : Prop := ∀ s t : State, PartLaws s → step s = .next t → PartLaws t

/-- While a task is not STOPPED its locked fields keep their values (law L10, R5): no command taken with CLK running changes a
locked field of a task that is not STOPPED before it, unless it is a power-on reset or VCC is applied, which stop every
task. -/
def Obligations.LockedFieldsKeepWhileRunning : Prop :=
  ∀ (i : Instr) (s t : State) (n : Slot), Ready s → s.waiting = [] → exec i s = .next t →
    (s.task n).rt.state ≠ .stopped → (t.task n).rt.state ≠ .stopped →
    lockedEq (t.task n).cfg (s.task n).cfg = true

/-! ### The byte on D7 to D0 -/

/-- A read of any position drives the register's value, as it stands when the read is taken, on D7 to D0; the byte stays while
RD# and CS# stay low, whatever the part does meanwhile, and goes when either rises; a read that R154 does not list changes
nothing else (R151, R154). A part held in reset drives nothing; a reset ends the driving, and a write cycle that it overlaps
is lost (R161; the pulse is one command, log entry 22). -/
def Obligations.BusReadsDriveAndHoldTheByte : Prop :=
  (∀ (s : State) (a : Addr) (trig : Level) (d : Byte) (y : Option Byte) (later : List BusInput),
    (∀ x ∈ later,
      (∃ l e v, x = .pins l { csLow := true, rdLow := true, wrLow := false, addr := e, data := v }) ∨
      (∃ i, x = .command i ∧ i.wellFormed = true ∧ (∀ w l, i ≠ .powerOnReset w l) ∧ i ≠ .vccApplied)) →
    let rd : BusPins := { csLow := true, rdLow := true, wrLow := false, addr := a, data := d }
    ∃ b c, busStep (.pins trig rd) { part := s, port := idlePort, latched := y } = .next b ∧
      b.lines = (if s.held then none else some (readRegister a s)) ∧ b.part.dataOut = b.lines ∧
      (∀ i, decodeRead a = some i → exec i s = .next b.part) ∧
      (decodeRead a = none → b.part = { s with dataOut := b.lines }) ∧
      runBus later b = .next c ∧ c.lines = b.lines ∧
      (∀ (l : Level) (off : BusPins), (off.csLow = false ∨ off.rdLow = false) →
        ∃ e, busStep (.pins l off) c = .next e ∧ e.lines = none) ∧
      (∀ l, ∃ e, busStep (.command (.powerOnReset .full l)) c = .next e ∧ e.lines = none) ∧
      (∃ e, busStep (.command .vccApplied) c = .next e ∧ e.lines = none)) ∧
  (∀ (s : State) (a : Addr) (trig l : Level) (v : Byte) (y : Option Byte),
    let wr : BusPins := { csLow := true, rdLow := false, wrLow := true, addr := a, data := v }
    let off : BusPins := { csLow := false, rdLow := false, wrLow := false, addr := a, data := v }
    ∃ e, runBus [.pins trig wr, .command (.powerOnReset .full l), .pins trig off]
        { part := s, port := idlePort, latched := y } = .next e ∧
      exec (.powerOnReset .full l) s = .next e.part ∧ e.lines = none)
end

