-- ==== Sys2Proof/Laws/State.lean ====
section
/-! SUPPORT. One lemma for each field of the state under each named update, so that no proof unfolds a record update. -/

namespace Sys2Proof.Machine

variable (s : State)

/-! ### setTask -/

@[simp] theorem State.setTask_stage (n : Slot) (t : Task) : (s.setTask n t).stage = s.stage := rfl
@[simp] theorem State.setTask_tickDiv (n : Slot) (t : Task) : (s.setTask n t).tickDiv = s.tickDiv := rfl
@[simp] theorem State.setTask_tickPeriod (n : Slot) (t : Task) : (s.setTask n t).tickPeriod = s.tickPeriod := rfl
@[simp] theorem State.setTask_tickCount (n : Slot) (t : Task) : (s.setTask n t).tickCount = s.tickCount := rfl
@[simp] theorem State.setTask_tickHold (n : Slot) (t : Task) : (s.setTask n t).tickHold = s.tickHold := rfl
@[simp] theorem State.setTask_trigCfg (n : Slot) (t : Task) : (s.setTask n t).trigCfg = s.trigCfg := rfl
@[simp] theorem State.setTask_trigRef (n : Slot) (t : Task) : (s.setTask n t).trigRef = s.trigRef := rfl
@[simp] theorem State.setTask_runQueue (n : Slot) (t : Task) : (s.setTask n t).runQueue = s.runQueue := rfl
@[simp] theorem State.setTask_runState (n : Slot) (t : Task) : (s.setTask n t).runState = s.runState := rfl
@[simp] theorem State.setTask_conv (n : Slot) (t : Task) : (s.setTask n t).conv = s.conv := rfl
@[simp] theorem State.setTask_rq (n : Slot) (t : Task) : (s.setTask n t).rq = s.rq := rfl
@[simp] theorem State.setTask_taskLatch (n : Slot) (t : Task) : (s.setTask n t).taskLatch = s.taskLatch := rfl
@[simp] theorem State.setTask_sysLatch (n : Slot) (t : Task) : (s.setTask n t).sysLatch = s.sysLatch := rfl
@[simp] theorem State.setTask_taskEnable (n : Slot) (t : Task) : (s.setTask n t).taskEnable = s.taskEnable := rfl
@[simp] theorem State.setTask_sysEnable (n : Slot) (t : Task) : (s.setTask n t).sysEnable = s.sysEnable := rfl
@[simp] theorem State.setTask_cmdst (n : Slot) (t : Task) : (s.setTask n t).cmdst = s.cmdst := rfl
@[simp] theorem State.setTask_carg (n : Slot) (t : Task) : (s.setTask n t).carg = s.carg := rfl
@[simp] theorem State.setTask_dataOut (n : Slot) (t : Task) : (s.setTask n t).dataOut = s.dataOut := rfl
@[simp] theorem State.setTask_clkRunning (n : Slot) (t : Task) : (s.setTask n t).clkRunning = s.clkRunning := rfl
@[simp] theorem State.setTask_waiting (n : Slot) (t : Task) : (s.setTask n t).waiting = s.waiting := rfl
@[simp] theorem State.setTask_held (n : Slot) (t : Task) : (s.setTask n t).held = s.held := rfl
@[simp] theorem State.setTask_freeCount (n : Slot) (t : Task) : (s.setTask n t).freeCount = s.freeCount := rfl
@[simp] theorem State.setTask_pending (n : Slot) (t : Task) : (s.setTask n t).pending = s.pending := rfl

/-! ### modRuntime -/

@[simp] theorem State.modRuntime_stage (n : Slot) (f : TaskRuntime → TaskRuntime) : (s.modRuntime n f).stage = s.stage := rfl
@[simp] theorem State.modRuntime_tickDiv (n : Slot) (f : TaskRuntime → TaskRuntime) : (s.modRuntime n f).tickDiv = s.tickDiv := rfl
@[simp] theorem State.modRuntime_tickPeriod (n : Slot) (f : TaskRuntime → TaskRuntime) : (s.modRuntime n f).tickPeriod = s.tickPeriod := rfl
@[simp] theorem State.modRuntime_tickCount (n : Slot) (f : TaskRuntime → TaskRuntime) : (s.modRuntime n f).tickCount = s.tickCount := rfl
@[simp] theorem State.modRuntime_tickHold (n : Slot) (f : TaskRuntime → TaskRuntime) : (s.modRuntime n f).tickHold = s.tickHold := rfl
@[simp] theorem State.modRuntime_trigCfg (n : Slot) (f : TaskRuntime → TaskRuntime) : (s.modRuntime n f).trigCfg = s.trigCfg := rfl
@[simp] theorem State.modRuntime_trigRef (n : Slot) (f : TaskRuntime → TaskRuntime) : (s.modRuntime n f).trigRef = s.trigRef := rfl
@[simp] theorem State.modRuntime_runQueue (n : Slot) (f : TaskRuntime → TaskRuntime) : (s.modRuntime n f).runQueue = s.runQueue := rfl
@[simp] theorem State.modRuntime_runState (n : Slot) (f : TaskRuntime → TaskRuntime) : (s.modRuntime n f).runState = s.runState := rfl
@[simp] theorem State.modRuntime_conv (n : Slot) (f : TaskRuntime → TaskRuntime) : (s.modRuntime n f).conv = s.conv := rfl
@[simp] theorem State.modRuntime_rq (n : Slot) (f : TaskRuntime → TaskRuntime) : (s.modRuntime n f).rq = s.rq := rfl
@[simp] theorem State.modRuntime_taskLatch (n : Slot) (f : TaskRuntime → TaskRuntime) : (s.modRuntime n f).taskLatch = s.taskLatch := rfl
@[simp] theorem State.modRuntime_sysLatch (n : Slot) (f : TaskRuntime → TaskRuntime) : (s.modRuntime n f).sysLatch = s.sysLatch := rfl
@[simp] theorem State.modRuntime_taskEnable (n : Slot) (f : TaskRuntime → TaskRuntime) : (s.modRuntime n f).taskEnable = s.taskEnable := rfl
@[simp] theorem State.modRuntime_sysEnable (n : Slot) (f : TaskRuntime → TaskRuntime) : (s.modRuntime n f).sysEnable = s.sysEnable := rfl
@[simp] theorem State.modRuntime_cmdst (n : Slot) (f : TaskRuntime → TaskRuntime) : (s.modRuntime n f).cmdst = s.cmdst := rfl
@[simp] theorem State.modRuntime_carg (n : Slot) (f : TaskRuntime → TaskRuntime) : (s.modRuntime n f).carg = s.carg := rfl
@[simp] theorem State.modRuntime_dataOut (n : Slot) (f : TaskRuntime → TaskRuntime) : (s.modRuntime n f).dataOut = s.dataOut := rfl
@[simp] theorem State.modRuntime_clkRunning (n : Slot) (f : TaskRuntime → TaskRuntime) : (s.modRuntime n f).clkRunning = s.clkRunning := rfl
@[simp] theorem State.modRuntime_waiting (n : Slot) (f : TaskRuntime → TaskRuntime) : (s.modRuntime n f).waiting = s.waiting := rfl
@[simp] theorem State.modRuntime_held (n : Slot) (f : TaskRuntime → TaskRuntime) : (s.modRuntime n f).held = s.held := rfl
@[simp] theorem State.modRuntime_freeCount (n : Slot) (f : TaskRuntime → TaskRuntime) : (s.modRuntime n f).freeCount = s.freeCount := rfl
@[simp] theorem State.modRuntime_pending (n : Slot) (f : TaskRuntime → TaskRuntime) : (s.modRuntime n f).pending = s.pending := rfl

/-! ### setTaskState -/

@[simp] theorem State.setTaskState_stage (n : Slot) (st : TaskState) : (s.setTaskState n st).stage = s.stage := rfl
@[simp] theorem State.setTaskState_tickDiv (n : Slot) (st : TaskState) : (s.setTaskState n st).tickDiv = s.tickDiv := rfl
@[simp] theorem State.setTaskState_tickPeriod (n : Slot) (st : TaskState) : (s.setTaskState n st).tickPeriod = s.tickPeriod := rfl
@[simp] theorem State.setTaskState_tickCount (n : Slot) (st : TaskState) : (s.setTaskState n st).tickCount = s.tickCount := rfl
@[simp] theorem State.setTaskState_tickHold (n : Slot) (st : TaskState) : (s.setTaskState n st).tickHold = s.tickHold := rfl
@[simp] theorem State.setTaskState_trigCfg (n : Slot) (st : TaskState) : (s.setTaskState n st).trigCfg = s.trigCfg := rfl
@[simp] theorem State.setTaskState_trigRef (n : Slot) (st : TaskState) : (s.setTaskState n st).trigRef = s.trigRef := rfl
@[simp] theorem State.setTaskState_runQueue (n : Slot) (st : TaskState) : (s.setTaskState n st).runQueue = s.runQueue := rfl
@[simp] theorem State.setTaskState_runState (n : Slot) (st : TaskState) : (s.setTaskState n st).runState = s.runState := rfl
@[simp] theorem State.setTaskState_conv (n : Slot) (st : TaskState) : (s.setTaskState n st).conv = s.conv := rfl
@[simp] theorem State.setTaskState_rq (n : Slot) (st : TaskState) : (s.setTaskState n st).rq = s.rq := rfl
@[simp] theorem State.setTaskState_taskLatch (n : Slot) (st : TaskState) : (s.setTaskState n st).taskLatch = s.taskLatch := rfl
@[simp] theorem State.setTaskState_sysLatch (n : Slot) (st : TaskState) : (s.setTaskState n st).sysLatch = s.sysLatch := rfl
@[simp] theorem State.setTaskState_taskEnable (n : Slot) (st : TaskState) : (s.setTaskState n st).taskEnable = s.taskEnable := rfl
@[simp] theorem State.setTaskState_sysEnable (n : Slot) (st : TaskState) : (s.setTaskState n st).sysEnable = s.sysEnable := rfl
@[simp] theorem State.setTaskState_cmdst (n : Slot) (st : TaskState) : (s.setTaskState n st).cmdst = s.cmdst := rfl
@[simp] theorem State.setTaskState_carg (n : Slot) (st : TaskState) : (s.setTaskState n st).carg = s.carg := rfl
@[simp] theorem State.setTaskState_dataOut (n : Slot) (st : TaskState) : (s.setTaskState n st).dataOut = s.dataOut := rfl
@[simp] theorem State.setTaskState_clkRunning (n : Slot) (st : TaskState) : (s.setTaskState n st).clkRunning = s.clkRunning := rfl
@[simp] theorem State.setTaskState_waiting (n : Slot) (st : TaskState) : (s.setTaskState n st).waiting = s.waiting := rfl
@[simp] theorem State.setTaskState_held (n : Slot) (st : TaskState) : (s.setTaskState n st).held = s.held := rfl
@[simp] theorem State.setTaskState_freeCount (n : Slot) (st : TaskState) : (s.setTaskState n st).freeCount = s.freeCount := rfl
@[simp] theorem State.setTaskState_pending (n : Slot) (st : TaskState) : (s.setTaskState n st).pending = s.pending := rfl

/-! ### setStage -/

@[simp] theorem State.setStage_tasks (x : Stage) : (s.setStage x).tasks = s.tasks := rfl
@[simp] theorem State.setStage_stage (x : Stage) : (s.setStage x).stage = x := rfl
@[simp] theorem State.setStage_tickDiv (x : Stage) : (s.setStage x).tickDiv = s.tickDiv := rfl
@[simp] theorem State.setStage_tickPeriod (x : Stage) : (s.setStage x).tickPeriod = s.tickPeriod := rfl
@[simp] theorem State.setStage_tickCount (x : Stage) : (s.setStage x).tickCount = s.tickCount := rfl
@[simp] theorem State.setStage_tickHold (x : Stage) : (s.setStage x).tickHold = s.tickHold := rfl
@[simp] theorem State.setStage_trigCfg (x : Stage) : (s.setStage x).trigCfg = s.trigCfg := rfl
@[simp] theorem State.setStage_trigRef (x : Stage) : (s.setStage x).trigRef = s.trigRef := rfl
@[simp] theorem State.setStage_runQueue (x : Stage) : (s.setStage x).runQueue = s.runQueue := rfl
@[simp] theorem State.setStage_runState (x : Stage) : (s.setStage x).runState = s.runState := rfl
@[simp] theorem State.setStage_conv (x : Stage) : (s.setStage x).conv = s.conv := rfl
@[simp] theorem State.setStage_rq (x : Stage) : (s.setStage x).rq = s.rq := rfl
@[simp] theorem State.setStage_taskLatch (x : Stage) : (s.setStage x).taskLatch = s.taskLatch := rfl
@[simp] theorem State.setStage_sysLatch (x : Stage) : (s.setStage x).sysLatch = s.sysLatch := rfl
@[simp] theorem State.setStage_taskEnable (x : Stage) : (s.setStage x).taskEnable = s.taskEnable := rfl
@[simp] theorem State.setStage_sysEnable (x : Stage) : (s.setStage x).sysEnable = s.sysEnable := rfl
@[simp] theorem State.setStage_cmdst (x : Stage) : (s.setStage x).cmdst = s.cmdst := rfl
@[simp] theorem State.setStage_carg (x : Stage) : (s.setStage x).carg = s.carg := rfl
@[simp] theorem State.setStage_dataOut (x : Stage) : (s.setStage x).dataOut = s.dataOut := rfl
@[simp] theorem State.setStage_clkRunning (x : Stage) : (s.setStage x).clkRunning = s.clkRunning := rfl
@[simp] theorem State.setStage_waiting (x : Stage) : (s.setStage x).waiting = s.waiting := rfl
@[simp] theorem State.setStage_held (x : Stage) : (s.setStage x).held = s.held := rfl
@[simp] theorem State.setStage_freeCount (x : Stage) : (s.setStage x).freeCount = s.freeCount := rfl
@[simp] theorem State.setStage_pending (x : Stage) : (s.setStage x).pending = s.pending := rfl
@[simp] theorem State.setStage_task (x : Stage) (m : Slot) : (s.setStage x).task m = s.task m := rfl

/-! ### setRunQueue -/

@[simp] theorem State.setRunQueue_tasks (q : List RunEntry) : (s.setRunQueue q).tasks = s.tasks := rfl
@[simp] theorem State.setRunQueue_stage (q : List RunEntry) : (s.setRunQueue q).stage = s.stage := rfl
@[simp] theorem State.setRunQueue_tickDiv (q : List RunEntry) : (s.setRunQueue q).tickDiv = s.tickDiv := rfl
@[simp] theorem State.setRunQueue_tickPeriod (q : List RunEntry) : (s.setRunQueue q).tickPeriod = s.tickPeriod := rfl
@[simp] theorem State.setRunQueue_tickCount (q : List RunEntry) : (s.setRunQueue q).tickCount = s.tickCount := rfl
@[simp] theorem State.setRunQueue_tickHold (q : List RunEntry) : (s.setRunQueue q).tickHold = s.tickHold := rfl
@[simp] theorem State.setRunQueue_trigCfg (q : List RunEntry) : (s.setRunQueue q).trigCfg = s.trigCfg := rfl
@[simp] theorem State.setRunQueue_trigRef (q : List RunEntry) : (s.setRunQueue q).trigRef = s.trigRef := rfl
@[simp] theorem State.setRunQueue_runQueue (q : List RunEntry) : (s.setRunQueue q).runQueue = q := rfl
@[simp] theorem State.setRunQueue_runState (q : List RunEntry) : (s.setRunQueue q).runState = s.runState := rfl
@[simp] theorem State.setRunQueue_conv (q : List RunEntry) : (s.setRunQueue q).conv = s.conv := rfl
@[simp] theorem State.setRunQueue_rq (q : List RunEntry) : (s.setRunQueue q).rq = s.rq := rfl
@[simp] theorem State.setRunQueue_taskLatch (q : List RunEntry) : (s.setRunQueue q).taskLatch = s.taskLatch := rfl
@[simp] theorem State.setRunQueue_sysLatch (q : List RunEntry) : (s.setRunQueue q).sysLatch = s.sysLatch := rfl
@[simp] theorem State.setRunQueue_taskEnable (q : List RunEntry) : (s.setRunQueue q).taskEnable = s.taskEnable := rfl
@[simp] theorem State.setRunQueue_sysEnable (q : List RunEntry) : (s.setRunQueue q).sysEnable = s.sysEnable := rfl
@[simp] theorem State.setRunQueue_cmdst (q : List RunEntry) : (s.setRunQueue q).cmdst = s.cmdst := rfl
@[simp] theorem State.setRunQueue_carg (q : List RunEntry) : (s.setRunQueue q).carg = s.carg := rfl
@[simp] theorem State.setRunQueue_dataOut (q : List RunEntry) : (s.setRunQueue q).dataOut = s.dataOut := rfl
@[simp] theorem State.setRunQueue_clkRunning (q : List RunEntry) : (s.setRunQueue q).clkRunning = s.clkRunning := rfl
@[simp] theorem State.setRunQueue_waiting (q : List RunEntry) : (s.setRunQueue q).waiting = s.waiting := rfl
@[simp] theorem State.setRunQueue_held (q : List RunEntry) : (s.setRunQueue q).held = s.held := rfl
@[simp] theorem State.setRunQueue_freeCount (q : List RunEntry) : (s.setRunQueue q).freeCount = s.freeCount := rfl
@[simp] theorem State.setRunQueue_pending (q : List RunEntry) : (s.setRunQueue q).pending = s.pending := rfl
@[simp] theorem State.setRunQueue_task (q : List RunEntry) (m : Slot) : (s.setRunQueue q).task m = s.task m := rfl

/-! ### setRunState -/

@[simp] theorem State.setRunState_tasks (r : RunState) : (s.setRunState r).tasks = s.tasks := rfl
@[simp] theorem State.setRunState_stage (r : RunState) : (s.setRunState r).stage = s.stage := rfl
@[simp] theorem State.setRunState_tickDiv (r : RunState) : (s.setRunState r).tickDiv = s.tickDiv := rfl
@[simp] theorem State.setRunState_tickPeriod (r : RunState) : (s.setRunState r).tickPeriod = s.tickPeriod := rfl
@[simp] theorem State.setRunState_tickCount (r : RunState) : (s.setRunState r).tickCount = s.tickCount := rfl
@[simp] theorem State.setRunState_tickHold (r : RunState) : (s.setRunState r).tickHold = s.tickHold := rfl
@[simp] theorem State.setRunState_trigCfg (r : RunState) : (s.setRunState r).trigCfg = s.trigCfg := rfl
@[simp] theorem State.setRunState_trigRef (r : RunState) : (s.setRunState r).trigRef = s.trigRef := rfl
@[simp] theorem State.setRunState_runQueue (r : RunState) : (s.setRunState r).runQueue = s.runQueue := rfl
@[simp] theorem State.setRunState_runState (r : RunState) : (s.setRunState r).runState = r := rfl
@[simp] theorem State.setRunState_conv (r : RunState) : (s.setRunState r).conv = s.conv := rfl
@[simp] theorem State.setRunState_rq (r : RunState) : (s.setRunState r).rq = s.rq := rfl
@[simp] theorem State.setRunState_taskLatch (r : RunState) : (s.setRunState r).taskLatch = s.taskLatch := rfl
@[simp] theorem State.setRunState_sysLatch (r : RunState) : (s.setRunState r).sysLatch = s.sysLatch := rfl
@[simp] theorem State.setRunState_taskEnable (r : RunState) : (s.setRunState r).taskEnable = s.taskEnable := rfl
@[simp] theorem State.setRunState_sysEnable (r : RunState) : (s.setRunState r).sysEnable = s.sysEnable := rfl
@[simp] theorem State.setRunState_cmdst (r : RunState) : (s.setRunState r).cmdst = s.cmdst := rfl
@[simp] theorem State.setRunState_carg (r : RunState) : (s.setRunState r).carg = s.carg := rfl
@[simp] theorem State.setRunState_dataOut (r : RunState) : (s.setRunState r).dataOut = s.dataOut := rfl
@[simp] theorem State.setRunState_clkRunning (r : RunState) : (s.setRunState r).clkRunning = s.clkRunning := rfl
@[simp] theorem State.setRunState_waiting (r : RunState) : (s.setRunState r).waiting = s.waiting := rfl
@[simp] theorem State.setRunState_held (r : RunState) : (s.setRunState r).held = s.held := rfl
@[simp] theorem State.setRunState_freeCount (r : RunState) : (s.setRunState r).freeCount = s.freeCount := rfl
@[simp] theorem State.setRunState_pending (r : RunState) : (s.setRunState r).pending = s.pending := rfl
@[simp] theorem State.setRunState_task (r : RunState) (m : Slot) : (s.setRunState r).task m = s.task m := rfl

/-! ### setConv -/

@[simp] theorem State.setConv_tasks (c : Option Conversion) : (s.setConv c).tasks = s.tasks := rfl
@[simp] theorem State.setConv_stage (c : Option Conversion) : (s.setConv c).stage = s.stage := rfl
@[simp] theorem State.setConv_tickDiv (c : Option Conversion) : (s.setConv c).tickDiv = s.tickDiv := rfl
@[simp] theorem State.setConv_tickPeriod (c : Option Conversion) : (s.setConv c).tickPeriod = s.tickPeriod := rfl
@[simp] theorem State.setConv_tickCount (c : Option Conversion) : (s.setConv c).tickCount = s.tickCount := rfl
@[simp] theorem State.setConv_tickHold (c : Option Conversion) : (s.setConv c).tickHold = s.tickHold := rfl
@[simp] theorem State.setConv_trigCfg (c : Option Conversion) : (s.setConv c).trigCfg = s.trigCfg := rfl
@[simp] theorem State.setConv_trigRef (c : Option Conversion) : (s.setConv c).trigRef = s.trigRef := rfl
@[simp] theorem State.setConv_runQueue (c : Option Conversion) : (s.setConv c).runQueue = s.runQueue := rfl
@[simp] theorem State.setConv_runState (c : Option Conversion) : (s.setConv c).runState = s.runState := rfl
@[simp] theorem State.setConv_conv (c : Option Conversion) : (s.setConv c).conv = c := rfl
@[simp] theorem State.setConv_rq (c : Option Conversion) : (s.setConv c).rq = s.rq := rfl
@[simp] theorem State.setConv_taskLatch (c : Option Conversion) : (s.setConv c).taskLatch = s.taskLatch := rfl
@[simp] theorem State.setConv_sysLatch (c : Option Conversion) : (s.setConv c).sysLatch = s.sysLatch := rfl
@[simp] theorem State.setConv_taskEnable (c : Option Conversion) : (s.setConv c).taskEnable = s.taskEnable := rfl
@[simp] theorem State.setConv_sysEnable (c : Option Conversion) : (s.setConv c).sysEnable = s.sysEnable := rfl
@[simp] theorem State.setConv_cmdst (c : Option Conversion) : (s.setConv c).cmdst = s.cmdst := rfl
@[simp] theorem State.setConv_carg (c : Option Conversion) : (s.setConv c).carg = s.carg := rfl
@[simp] theorem State.setConv_dataOut (c : Option Conversion) : (s.setConv c).dataOut = s.dataOut := rfl
@[simp] theorem State.setConv_clkRunning (c : Option Conversion) : (s.setConv c).clkRunning = s.clkRunning := rfl
@[simp] theorem State.setConv_waiting (c : Option Conversion) : (s.setConv c).waiting = s.waiting := rfl
@[simp] theorem State.setConv_held (c : Option Conversion) : (s.setConv c).held = s.held := rfl
@[simp] theorem State.setConv_freeCount (c : Option Conversion) : (s.setConv c).freeCount = s.freeCount := rfl
@[simp] theorem State.setConv_pending (c : Option Conversion) : (s.setConv c).pending = s.pending := rfl
@[simp] theorem State.setConv_task (c : Option Conversion) (m : Slot) : (s.setConv c).task m = s.task m := rfl

/-! ### setQueue -/

@[simp] theorem State.setQueue_tasks (q : ResultQueue) : (s.setQueue q).tasks = s.tasks := rfl
@[simp] theorem State.setQueue_stage (q : ResultQueue) : (s.setQueue q).stage = s.stage := rfl
@[simp] theorem State.setQueue_tickDiv (q : ResultQueue) : (s.setQueue q).tickDiv = s.tickDiv := rfl
@[simp] theorem State.setQueue_tickPeriod (q : ResultQueue) : (s.setQueue q).tickPeriod = s.tickPeriod := rfl
@[simp] theorem State.setQueue_tickCount (q : ResultQueue) : (s.setQueue q).tickCount = s.tickCount := rfl
@[simp] theorem State.setQueue_tickHold (q : ResultQueue) : (s.setQueue q).tickHold = s.tickHold := rfl
@[simp] theorem State.setQueue_trigCfg (q : ResultQueue) : (s.setQueue q).trigCfg = s.trigCfg := rfl
@[simp] theorem State.setQueue_trigRef (q : ResultQueue) : (s.setQueue q).trigRef = s.trigRef := rfl
@[simp] theorem State.setQueue_runQueue (q : ResultQueue) : (s.setQueue q).runQueue = s.runQueue := rfl
@[simp] theorem State.setQueue_runState (q : ResultQueue) : (s.setQueue q).runState = s.runState := rfl
@[simp] theorem State.setQueue_conv (q : ResultQueue) : (s.setQueue q).conv = s.conv := rfl
@[simp] theorem State.setQueue_rq (q : ResultQueue) : (s.setQueue q).rq = q := rfl
@[simp] theorem State.setQueue_taskLatch (q : ResultQueue) : (s.setQueue q).taskLatch = s.taskLatch := rfl
@[simp] theorem State.setQueue_sysLatch (q : ResultQueue) : (s.setQueue q).sysLatch = s.sysLatch := rfl
@[simp] theorem State.setQueue_taskEnable (q : ResultQueue) : (s.setQueue q).taskEnable = s.taskEnable := rfl
@[simp] theorem State.setQueue_sysEnable (q : ResultQueue) : (s.setQueue q).sysEnable = s.sysEnable := rfl
@[simp] theorem State.setQueue_cmdst (q : ResultQueue) : (s.setQueue q).cmdst = s.cmdst := rfl
@[simp] theorem State.setQueue_carg (q : ResultQueue) : (s.setQueue q).carg = s.carg := rfl
@[simp] theorem State.setQueue_dataOut (q : ResultQueue) : (s.setQueue q).dataOut = s.dataOut := rfl
@[simp] theorem State.setQueue_clkRunning (q : ResultQueue) : (s.setQueue q).clkRunning = s.clkRunning := rfl
@[simp] theorem State.setQueue_waiting (q : ResultQueue) : (s.setQueue q).waiting = s.waiting := rfl
@[simp] theorem State.setQueue_held (q : ResultQueue) : (s.setQueue q).held = s.held := rfl
@[simp] theorem State.setQueue_freeCount (q : ResultQueue) : (s.setQueue q).freeCount = s.freeCount := rfl
@[simp] theorem State.setQueue_pending (q : ResultQueue) : (s.setQueue q).pending = s.pending := rfl
@[simp] theorem State.setQueue_task (q : ResultQueue) (m : Slot) : (s.setQueue q).task m = s.task m := rfl

/-! ### setSysLatch -/

@[simp] theorem State.setSysLatch_tasks (l : SysLatches) : (s.setSysLatch l).tasks = s.tasks := rfl
@[simp] theorem State.setSysLatch_stage (l : SysLatches) : (s.setSysLatch l).stage = s.stage := rfl
@[simp] theorem State.setSysLatch_tickDiv (l : SysLatches) : (s.setSysLatch l).tickDiv = s.tickDiv := rfl
@[simp] theorem State.setSysLatch_tickPeriod (l : SysLatches) : (s.setSysLatch l).tickPeriod = s.tickPeriod := rfl
@[simp] theorem State.setSysLatch_tickCount (l : SysLatches) : (s.setSysLatch l).tickCount = s.tickCount := rfl
@[simp] theorem State.setSysLatch_tickHold (l : SysLatches) : (s.setSysLatch l).tickHold = s.tickHold := rfl
@[simp] theorem State.setSysLatch_trigCfg (l : SysLatches) : (s.setSysLatch l).trigCfg = s.trigCfg := rfl
@[simp] theorem State.setSysLatch_trigRef (l : SysLatches) : (s.setSysLatch l).trigRef = s.trigRef := rfl
@[simp] theorem State.setSysLatch_runQueue (l : SysLatches) : (s.setSysLatch l).runQueue = s.runQueue := rfl
@[simp] theorem State.setSysLatch_runState (l : SysLatches) : (s.setSysLatch l).runState = s.runState := rfl
@[simp] theorem State.setSysLatch_conv (l : SysLatches) : (s.setSysLatch l).conv = s.conv := rfl
@[simp] theorem State.setSysLatch_rq (l : SysLatches) : (s.setSysLatch l).rq = s.rq := rfl
@[simp] theorem State.setSysLatch_taskLatch (l : SysLatches) : (s.setSysLatch l).taskLatch = s.taskLatch := rfl
@[simp] theorem State.setSysLatch_sysLatch (l : SysLatches) : (s.setSysLatch l).sysLatch = l := rfl
@[simp] theorem State.setSysLatch_taskEnable (l : SysLatches) : (s.setSysLatch l).taskEnable = s.taskEnable := rfl
@[simp] theorem State.setSysLatch_sysEnable (l : SysLatches) : (s.setSysLatch l).sysEnable = s.sysEnable := rfl
@[simp] theorem State.setSysLatch_cmdst (l : SysLatches) : (s.setSysLatch l).cmdst = s.cmdst := rfl
@[simp] theorem State.setSysLatch_carg (l : SysLatches) : (s.setSysLatch l).carg = s.carg := rfl
@[simp] theorem State.setSysLatch_dataOut (l : SysLatches) : (s.setSysLatch l).dataOut = s.dataOut := rfl
@[simp] theorem State.setSysLatch_clkRunning (l : SysLatches) : (s.setSysLatch l).clkRunning = s.clkRunning := rfl
@[simp] theorem State.setSysLatch_waiting (l : SysLatches) : (s.setSysLatch l).waiting = s.waiting := rfl
@[simp] theorem State.setSysLatch_held (l : SysLatches) : (s.setSysLatch l).held = s.held := rfl
@[simp] theorem State.setSysLatch_freeCount (l : SysLatches) : (s.setSysLatch l).freeCount = s.freeCount := rfl
@[simp] theorem State.setSysLatch_pending (l : SysLatches) : (s.setSysLatch l).pending = s.pending := rfl
@[simp] theorem State.setSysLatch_task (l : SysLatches) (m : Slot) : (s.setSysLatch l).task m = s.task m := rfl

/-! ### setTaskLatch -/

@[simp] theorem State.setTaskLatch_tasks (l : Word16) : (s.setTaskLatch l).tasks = s.tasks := rfl
@[simp] theorem State.setTaskLatch_stage (l : Word16) : (s.setTaskLatch l).stage = s.stage := rfl
@[simp] theorem State.setTaskLatch_tickDiv (l : Word16) : (s.setTaskLatch l).tickDiv = s.tickDiv := rfl
@[simp] theorem State.setTaskLatch_tickPeriod (l : Word16) : (s.setTaskLatch l).tickPeriod = s.tickPeriod := rfl
@[simp] theorem State.setTaskLatch_tickCount (l : Word16) : (s.setTaskLatch l).tickCount = s.tickCount := rfl
@[simp] theorem State.setTaskLatch_tickHold (l : Word16) : (s.setTaskLatch l).tickHold = s.tickHold := rfl
@[simp] theorem State.setTaskLatch_trigCfg (l : Word16) : (s.setTaskLatch l).trigCfg = s.trigCfg := rfl
@[simp] theorem State.setTaskLatch_trigRef (l : Word16) : (s.setTaskLatch l).trigRef = s.trigRef := rfl
@[simp] theorem State.setTaskLatch_runQueue (l : Word16) : (s.setTaskLatch l).runQueue = s.runQueue := rfl
@[simp] theorem State.setTaskLatch_runState (l : Word16) : (s.setTaskLatch l).runState = s.runState := rfl
@[simp] theorem State.setTaskLatch_conv (l : Word16) : (s.setTaskLatch l).conv = s.conv := rfl
@[simp] theorem State.setTaskLatch_rq (l : Word16) : (s.setTaskLatch l).rq = s.rq := rfl
@[simp] theorem State.setTaskLatch_taskLatch (l : Word16) : (s.setTaskLatch l).taskLatch = l := rfl
@[simp] theorem State.setTaskLatch_sysLatch (l : Word16) : (s.setTaskLatch l).sysLatch = s.sysLatch := rfl
@[simp] theorem State.setTaskLatch_taskEnable (l : Word16) : (s.setTaskLatch l).taskEnable = s.taskEnable := rfl
@[simp] theorem State.setTaskLatch_sysEnable (l : Word16) : (s.setTaskLatch l).sysEnable = s.sysEnable := rfl
@[simp] theorem State.setTaskLatch_cmdst (l : Word16) : (s.setTaskLatch l).cmdst = s.cmdst := rfl
@[simp] theorem State.setTaskLatch_carg (l : Word16) : (s.setTaskLatch l).carg = s.carg := rfl
@[simp] theorem State.setTaskLatch_dataOut (l : Word16) : (s.setTaskLatch l).dataOut = s.dataOut := rfl
@[simp] theorem State.setTaskLatch_clkRunning (l : Word16) : (s.setTaskLatch l).clkRunning = s.clkRunning := rfl
@[simp] theorem State.setTaskLatch_waiting (l : Word16) : (s.setTaskLatch l).waiting = s.waiting := rfl
@[simp] theorem State.setTaskLatch_held (l : Word16) : (s.setTaskLatch l).held = s.held := rfl
@[simp] theorem State.setTaskLatch_freeCount (l : Word16) : (s.setTaskLatch l).freeCount = s.freeCount := rfl
@[simp] theorem State.setTaskLatch_pending (l : Word16) : (s.setTaskLatch l).pending = s.pending := rfl
@[simp] theorem State.setTaskLatch_task (l : Word16) (m : Slot) : (s.setTaskLatch l).task m = s.task m := rfl

/-! ### setCmdst -/

@[simp] theorem State.setCmdst_tasks (r : ResultCode) : (s.setCmdst r).tasks = s.tasks := rfl
@[simp] theorem State.setCmdst_stage (r : ResultCode) : (s.setCmdst r).stage = s.stage := rfl
@[simp] theorem State.setCmdst_tickDiv (r : ResultCode) : (s.setCmdst r).tickDiv = s.tickDiv := rfl
@[simp] theorem State.setCmdst_tickPeriod (r : ResultCode) : (s.setCmdst r).tickPeriod = s.tickPeriod := rfl
@[simp] theorem State.setCmdst_tickCount (r : ResultCode) : (s.setCmdst r).tickCount = s.tickCount := rfl
@[simp] theorem State.setCmdst_tickHold (r : ResultCode) : (s.setCmdst r).tickHold = s.tickHold := rfl
@[simp] theorem State.setCmdst_trigCfg (r : ResultCode) : (s.setCmdst r).trigCfg = s.trigCfg := rfl
@[simp] theorem State.setCmdst_trigRef (r : ResultCode) : (s.setCmdst r).trigRef = s.trigRef := rfl
@[simp] theorem State.setCmdst_runQueue (r : ResultCode) : (s.setCmdst r).runQueue = s.runQueue := rfl
@[simp] theorem State.setCmdst_runState (r : ResultCode) : (s.setCmdst r).runState = s.runState := rfl
@[simp] theorem State.setCmdst_conv (r : ResultCode) : (s.setCmdst r).conv = s.conv := rfl
@[simp] theorem State.setCmdst_rq (r : ResultCode) : (s.setCmdst r).rq = s.rq := rfl
@[simp] theorem State.setCmdst_taskLatch (r : ResultCode) : (s.setCmdst r).taskLatch = s.taskLatch := rfl
@[simp] theorem State.setCmdst_sysLatch (r : ResultCode) : (s.setCmdst r).sysLatch = s.sysLatch := rfl
@[simp] theorem State.setCmdst_taskEnable (r : ResultCode) : (s.setCmdst r).taskEnable = s.taskEnable := rfl
@[simp] theorem State.setCmdst_sysEnable (r : ResultCode) : (s.setCmdst r).sysEnable = s.sysEnable := rfl
@[simp] theorem State.setCmdst_cmdst (r : ResultCode) : (s.setCmdst r).cmdst = r := rfl
@[simp] theorem State.setCmdst_carg (r : ResultCode) : (s.setCmdst r).carg = s.carg := rfl
@[simp] theorem State.setCmdst_dataOut (r : ResultCode) : (s.setCmdst r).dataOut = s.dataOut := rfl
@[simp] theorem State.setCmdst_clkRunning (r : ResultCode) : (s.setCmdst r).clkRunning = s.clkRunning := rfl
@[simp] theorem State.setCmdst_waiting (r : ResultCode) : (s.setCmdst r).waiting = s.waiting := rfl
@[simp] theorem State.setCmdst_held (r : ResultCode) : (s.setCmdst r).held = s.held := rfl
@[simp] theorem State.setCmdst_freeCount (r : ResultCode) : (s.setCmdst r).freeCount = s.freeCount := rfl
@[simp] theorem State.setCmdst_pending (r : ResultCode) : (s.setCmdst r).pending = s.pending := rfl
@[simp] theorem State.setCmdst_task (r : ResultCode) (m : Slot) : (s.setCmdst r).task m = s.task m := rfl

/-! ### setDataOut -/

@[simp] theorem State.setDataOut_tasks (b : Option Byte) : (s.setDataOut b).tasks = s.tasks := rfl
@[simp] theorem State.setDataOut_stage (b : Option Byte) : (s.setDataOut b).stage = s.stage := rfl
@[simp] theorem State.setDataOut_tickDiv (b : Option Byte) : (s.setDataOut b).tickDiv = s.tickDiv := rfl
@[simp] theorem State.setDataOut_tickPeriod (b : Option Byte) : (s.setDataOut b).tickPeriod = s.tickPeriod := rfl
@[simp] theorem State.setDataOut_tickCount (b : Option Byte) : (s.setDataOut b).tickCount = s.tickCount := rfl
@[simp] theorem State.setDataOut_tickHold (b : Option Byte) : (s.setDataOut b).tickHold = s.tickHold := rfl
@[simp] theorem State.setDataOut_trigCfg (b : Option Byte) : (s.setDataOut b).trigCfg = s.trigCfg := rfl
@[simp] theorem State.setDataOut_trigRef (b : Option Byte) : (s.setDataOut b).trigRef = s.trigRef := rfl
@[simp] theorem State.setDataOut_runQueue (b : Option Byte) : (s.setDataOut b).runQueue = s.runQueue := rfl
@[simp] theorem State.setDataOut_runState (b : Option Byte) : (s.setDataOut b).runState = s.runState := rfl
@[simp] theorem State.setDataOut_conv (b : Option Byte) : (s.setDataOut b).conv = s.conv := rfl
@[simp] theorem State.setDataOut_rq (b : Option Byte) : (s.setDataOut b).rq = s.rq := rfl
@[simp] theorem State.setDataOut_taskLatch (b : Option Byte) : (s.setDataOut b).taskLatch = s.taskLatch := rfl
@[simp] theorem State.setDataOut_sysLatch (b : Option Byte) : (s.setDataOut b).sysLatch = s.sysLatch := rfl
@[simp] theorem State.setDataOut_taskEnable (b : Option Byte) : (s.setDataOut b).taskEnable = s.taskEnable := rfl
@[simp] theorem State.setDataOut_sysEnable (b : Option Byte) : (s.setDataOut b).sysEnable = s.sysEnable := rfl
@[simp] theorem State.setDataOut_cmdst (b : Option Byte) : (s.setDataOut b).cmdst = s.cmdst := rfl
@[simp] theorem State.setDataOut_carg (b : Option Byte) : (s.setDataOut b).carg = s.carg := rfl
@[simp] theorem State.setDataOut_dataOut (b : Option Byte) : (s.setDataOut b).dataOut = b := rfl
@[simp] theorem State.setDataOut_clkRunning (b : Option Byte) : (s.setDataOut b).clkRunning = s.clkRunning := rfl
@[simp] theorem State.setDataOut_waiting (b : Option Byte) : (s.setDataOut b).waiting = s.waiting := rfl
@[simp] theorem State.setDataOut_held (b : Option Byte) : (s.setDataOut b).held = s.held := rfl
@[simp] theorem State.setDataOut_freeCount (b : Option Byte) : (s.setDataOut b).freeCount = s.freeCount := rfl
@[simp] theorem State.setDataOut_pending (b : Option Byte) : (s.setDataOut b).pending = s.pending := rfl
@[simp] theorem State.setDataOut_task (b : Option Byte) (m : Slot) : (s.setDataOut b).task m = s.task m := rfl

/-! ### setWaiting -/

@[simp] theorem State.setWaiting_tasks (w : List WaitingAccess) : (s.setWaiting w).tasks = s.tasks := rfl
@[simp] theorem State.setWaiting_stage (w : List WaitingAccess) : (s.setWaiting w).stage = s.stage := rfl
@[simp] theorem State.setWaiting_tickDiv (w : List WaitingAccess) : (s.setWaiting w).tickDiv = s.tickDiv := rfl
@[simp] theorem State.setWaiting_tickPeriod (w : List WaitingAccess) : (s.setWaiting w).tickPeriod = s.tickPeriod := rfl
@[simp] theorem State.setWaiting_tickCount (w : List WaitingAccess) : (s.setWaiting w).tickCount = s.tickCount := rfl
@[simp] theorem State.setWaiting_tickHold (w : List WaitingAccess) : (s.setWaiting w).tickHold = s.tickHold := rfl
@[simp] theorem State.setWaiting_trigCfg (w : List WaitingAccess) : (s.setWaiting w).trigCfg = s.trigCfg := rfl
@[simp] theorem State.setWaiting_trigRef (w : List WaitingAccess) : (s.setWaiting w).trigRef = s.trigRef := rfl
@[simp] theorem State.setWaiting_runQueue (w : List WaitingAccess) : (s.setWaiting w).runQueue = s.runQueue := rfl
@[simp] theorem State.setWaiting_runState (w : List WaitingAccess) : (s.setWaiting w).runState = s.runState := rfl
@[simp] theorem State.setWaiting_conv (w : List WaitingAccess) : (s.setWaiting w).conv = s.conv := rfl
@[simp] theorem State.setWaiting_rq (w : List WaitingAccess) : (s.setWaiting w).rq = s.rq := rfl
@[simp] theorem State.setWaiting_taskLatch (w : List WaitingAccess) : (s.setWaiting w).taskLatch = s.taskLatch := rfl
@[simp] theorem State.setWaiting_sysLatch (w : List WaitingAccess) : (s.setWaiting w).sysLatch = s.sysLatch := rfl
@[simp] theorem State.setWaiting_taskEnable (w : List WaitingAccess) : (s.setWaiting w).taskEnable = s.taskEnable := rfl
@[simp] theorem State.setWaiting_sysEnable (w : List WaitingAccess) : (s.setWaiting w).sysEnable = s.sysEnable := rfl
@[simp] theorem State.setWaiting_cmdst (w : List WaitingAccess) : (s.setWaiting w).cmdst = s.cmdst := rfl
@[simp] theorem State.setWaiting_carg (w : List WaitingAccess) : (s.setWaiting w).carg = s.carg := rfl
@[simp] theorem State.setWaiting_dataOut (w : List WaitingAccess) : (s.setWaiting w).dataOut = s.dataOut := rfl
@[simp] theorem State.setWaiting_clkRunning (w : List WaitingAccess) : (s.setWaiting w).clkRunning = s.clkRunning := rfl
@[simp] theorem State.setWaiting_waiting (w : List WaitingAccess) : (s.setWaiting w).waiting = w := rfl
@[simp] theorem State.setWaiting_held (w : List WaitingAccess) : (s.setWaiting w).held = s.held := rfl
@[simp] theorem State.setWaiting_freeCount (w : List WaitingAccess) : (s.setWaiting w).freeCount = s.freeCount := rfl
@[simp] theorem State.setWaiting_pending (w : List WaitingAccess) : (s.setWaiting w).pending = s.pending := rfl
@[simp] theorem State.setWaiting_task (w : List WaitingAccess) (m : Slot) : (s.setWaiting w).task m = s.task m := rfl

/-! ### The task table -/

theorem State.setTask_task (n m : Slot) (t : Task) : (s.setTask n t).task m = if m = n then t else s.task m := by
  by_cases h : m = n
  · subst h
    simp [State.task, State.setTask]
  · have h' : n.val ≠ m.val := fun e => h (Fin.ext e.symm)
    simp [State.task, State.setTask, h, h']

@[simp] theorem State.setTask_task_same (n : Slot) (t : Task) : (s.setTask n t).task n = t := by
  simp [State.setTask_task]

theorem State.setTask_task_other {n m : Slot} (h : m ≠ n) (t : Task) : (s.setTask n t).task m = s.task m := by
  simp [State.setTask_task, h]

theorem State.modRuntime_task (n m : Slot) (f : TaskRuntime → TaskRuntime) :
    (s.modRuntime n f).task m = if m = n then { s.task n with rt := f (s.task n).rt } else s.task m :=
  State.setTask_task s n m _

@[simp] theorem State.modRuntime_task_same (n : Slot) (f : TaskRuntime → TaskRuntime) :
    (s.modRuntime n f).task n = { s.task n with rt := f (s.task n).rt } := by
  simp [State.modRuntime_task]

theorem State.modRuntime_task_other {n m : Slot} (h : m ≠ n) (f : TaskRuntime → TaskRuntime) :
    (s.modRuntime n f).task m = s.task m := by
  simp [State.modRuntime_task, h]

theorem State.setTaskState_task (n m : Slot) (st : TaskState) :
    (s.setTaskState n st).task m =
      if m = n then { s.task n with rt := { (s.task n).rt with state := st } } else s.task m :=
  State.modRuntime_task s n m _

/-- A change of runtime parts leaves every configuration as it was. -/
@[simp] theorem State.modRuntime_cfg (n m : Slot) (f : TaskRuntime → TaskRuntime) :
    ((s.modRuntime n f).task m).cfg = (s.task m).cfg := by
  rw [State.modRuntime_task]
  split <;> simp_all

@[simp] theorem State.setTaskState_cfg (n m : Slot) (st : TaskState) :
    ((s.setTaskState n st).task m).cfg = (s.task m).cfg :=
  State.modRuntime_cfg s n m _

/-- Two changes of one runtime part are one change. -/
theorem State.modRuntime_modRuntime (n : Slot) (f g : TaskRuntime → TaskRuntime) :
    (s.modRuntime n f).modRuntime n g = s.modRuntime n fun r => g (f r) := by
  simp [State.modRuntime, State.setTask, State.task]

/-- Two task tables with the same record in every slot are the same table. -/
theorem tasks_ext {a b : TaskTable} (h : ∀ n : Slot, a[n] = b[n]) : a = b := by
  apply Vector.ext
  intro i hi
  exact h ⟨i, hi⟩

/-- Two states that agree in everything but the task table, and in every record, are the same state. -/
theorem State.ext_tasks {t : State} (h : t = { s with tasks := t.tasks }) (hn : ∀ n, t.task n = s.task n) : t = s := by
  have : t.tasks = s.tasks := tasks_ext hn
  rw [h, this]

end Sys2Proof.Machine
end

