-- ==== Sys2Proof/Laws/Ops.lean ====
section
/-! SUPPORT. What the shared operations of Machine/Ops.lean can do, said once each. -/

namespace Sys2Proof.Machine

variable (s : State)

/-! ### Counts -/

theorem satInc_toNat (b : Byte) : (satInc b).toNat = min 255 (b.toNat + 1) := by
  unfold satInc
  split
  · next h => subst h; decide
  · have : b.toNat ≠ 255 := fun h => by
      apply_assumption
      exact BitVec.eq_of_toNat_eq h
    have := b.isLt
    rw [BitVec.toNat_add]
    simp
    omega

theorem satAdd_toNat (b : Byte) (k : Nat) : (satAdd b k).toNat = min 255 (b.toNat + k) := by
  simp only [satAdd, BitVec.toNat_ofNat]
  omega

theorem satInc_ne_zero (b : Byte) : satInc b ≠ 0#8 := by
  intro h
  have := congrArg BitVec.toNat h
  rw [satInc_toNat] at this
  simp at this

@[simp] theorem satAdd_zero (b : Byte) : satAdd b 0 = b := by
  apply BitVec.eq_of_toNat_eq
  rw [satAdd_toNat]
  have := b.isLt
  omega

/-! ### The slot argument (R156) -/

theorem slotArg_of_eq {n : Slot} (h : s.carg.toNat = n.val) : slotArg s = some n := by
  simp [slotArg, h]

theorem slotArg_of_ge (h : 16 ≤ s.carg.toNat) : slotArg s = none := by
  simp only [slotArg, dite_eq_right_iff]
  omega

theorem slotArg_eq_some {n : Slot} : slotArg s = some n ↔ s.carg.toNat = n.val := by
  constructor
  · intro h
    simp only [slotArg, Option.dite_none_right_eq_some, Option.some.injEq] at h
    obtain ⟨_, rfl⟩ := h
    rfl
  · exact slotArg_of_eq s

theorem onSlot_of_eq {n : Slot} (f : Slot → State → State) (h : s.carg.toNat = n.val) : onSlot f s = f n s := by
  simp [onSlot, slotArg_of_eq s h]

theorem onSlot_of_ge (f : Slot → State → State) (h : 16 ≤ s.carg.toNat) : onSlot f s = refuseCmd .badSlot s := by
  simp [onSlot, slotArg_of_ge s h]

/-- A slot command is refused with BAD_SLOT or acts on the slot CARG names. -/
theorem onSlot_cases (f : Slot → State → State) :
    (16 ≤ s.carg.toNat ∧ onSlot f s = refuseCmd .badSlot s) ∨
    ∃ n : Slot, s.carg.toNat = n.val ∧ onSlot f s = f n s := by
  by_cases h : 16 ≤ s.carg.toNat
  · exact .inl ⟨h, onSlot_of_ge s f h⟩
  · exact .inr ⟨⟨s.carg.toNat, by omega⟩, rfl, onSlot_of_eq s f rfl⟩

/-! ### The answer of a command (R157, R158) -/

/-- An accepted command's answer is OK in CMDST and nothing else. -/
theorem acceptCmd_eq : acceptCmd s = { s with cmdst := .ok } := rfl

/-- A refusal is its code in CMDST, CMDERR, and nothing else. -/
theorem refuseCmd_eq (c : ResultCode) :
    refuseCmd c s = { s with cmdst := c, sysLatch := { s.sysLatch with cmderr := true } } := rfl

@[simp] theorem acceptCmd_task (n : Slot) : (acceptCmd s).task n = s.task n := rfl
@[simp] theorem acceptCmd_pending : (acceptCmd s).pending = s.pending := rfl
@[simp] theorem refuseCmd_task (c : ResultCode) (n : Slot) : (refuseCmd c s).task n = s.task n := rfl
@[simp] theorem refuseCmd_pending (c : ResultCode) : (refuseCmd c s).pending = s.pending := rfl

/-! ### Taking an access or an event (R151, R161, R164) -/

variable {s}

theorem takeWrite_ready (h : Ready s) (c : Instr) (f : State → State) : takeWrite c f s = f (s.setDataOut none) := by
  simp [takeWrite, h.1, h.2]

theorem takeRead_ready (h : Ready s) (c : Instr) (v : State → Byte) (f : Byte → State → State) :
    takeRead c v f s = f (v s) (s.setDataOut (some (v s))) := by
  simp [takeRead, h.1, h.2]

theorem takeEvent_ready (h : Ready s) (f : State → State) : takeEvent f s = f s := by
  simp [takeEvent, h.1, h.2]

theorem takeWrite_held (h : s.held = true) (c : Instr) (f : State → State) : takeWrite c f s = s.setDataOut none := by
  simp [takeWrite, h]

theorem takeRead_held (h : s.held = true) (c : Instr) (v : State → Byte) (f : Byte → State → State) :
    takeRead c v f s = s.setDataOut none := by
  simp [takeRead, h]

theorem takeEvent_held (h : s.held = true) (f : State → State) : takeEvent f s = s := by
  simp [takeEvent, h]

theorem takeWrite_stopped (h : s.held = false) (hc : s.clkRunning = false) (c : Instr) (f : State → State) :
    takeWrite c f s =
      { s with dataOut := none, waiting := s.waiting ++ [{ access := c, returned := 0#8 }] } := by
  simp [takeWrite, h, hc, State.setDataOut, State.setWaiting]

theorem takeRead_stopped (h : s.held = false) (hc : s.clkRunning = false) (c : Instr) (v : State → Byte)
    (f : Byte → State → State) :
    takeRead c v f s =
      { s with dataOut := some (v s), waiting := s.waiting ++ [{ access := c, returned := v s }] } := by
  simp [takeRead, h, hc, State.setDataOut, State.setWaiting]

theorem takeEvent_stopped (hc : s.clkRunning = false) (f : State → State) : takeEvent f s = s := by
  simp [takeEvent, hc]

variable (s)

/-- A write makes its change or leaves the state as it is, but for what the part drives and the waiting accesses. -/
theorem takeWrite_cases (c : Instr) (f : State → State) :
    takeWrite c f s = f (s.setDataOut none) ∨
    ∃ w, takeWrite c f s = { s with dataOut := none, waiting := w } := by
  unfold takeWrite
  split
  · exact .inr ⟨s.waiting, rfl⟩
  · split
    · exact .inl rfl
    · exact .inr ⟨_, rfl⟩

/-- A read makes its change or leaves the state as it is, but for what the part drives and the waiting accesses. -/
theorem takeRead_cases (c : Instr) (v : State → Byte) (f : Byte → State → State) :
    takeRead c v f s = f (v s) (s.setDataOut (some (v s))) ∨
    ∃ d w, takeRead c v f s = { s with dataOut := d, waiting := w } := by
  unfold takeRead
  split
  · exact .inr ⟨none, s.waiting, rfl⟩
  · split
    · exact .inl rfl
    · exact .inr ⟨_, _, rfl⟩

/-- An event is taken or it is not. -/
theorem takeEvent_cases (f : State → State) : takeEvent f s = f s ∨ takeEvent f s = s := by
  unfold takeEvent
  split
  · exact .inr rfl
  · split
    · exact .inl rfl
    · exact .inr rfl

end Sys2Proof.Machine
end

