-- ==== Sys2Proof/Laws/Queue.lean ====
section
/-! SUPPORT. What the Result Queue's operations can do: lengths, sequence numbers, storing, dropping, evicting, reading. -/

namespace Sys2Proof.Machine

/-! ### Lengths (R111, R113, R117) -/

theorem stampBytes_length (o : Option Word16) : (stampBytes o).length = if o.isSome then 2 else 0 := by
  cases o <;> rfl

theorem missBytes_length (o : Option Byte) : (missBytes o).length = if o.isSome then 1 else 0 := by
  cases o <;> rfl

theorem RecordBody.length_bounds (b : RecordBody) : 5 ≤ b.length ∧ b.length ≤ 8 := by
  unfold RecordBody.length
  split <;> split <;> omega

/-- A record takes as many bytes in the queue as RQDATA returns of it. -/
theorem QRecord.bytes_length (r : QRecord) : r.bytes.length = r.length := by
  cases r with
  | gap => rfl
  | result seq b =>
    simp only [QRecord.bytes, QRecord.length, RecordBody.length, List.length_append, stampBytes_length, missBytes_length]
    rfl

theorem QRecord.length_bounds (r : QRecord) : 3 ≤ r.length ∧ r.length ≤ 8 := by
  cases r with
  | gap => exact ⟨by simp [QRecord.length], by simp [QRecord.length]⟩
  | result _ b => exact ⟨by have := b.length_bounds; simp only [QRecord.length]; omega, b.length_bounds.2⟩

@[simp] theorem bytesOf_nil : bytesOf [] = 0 := rfl
@[simp] theorem bytesOf_cons (r : QRecord) (rs : List QRecord) : bytesOf (r :: rs) = r.length + bytesOf rs := rfl

@[simp] theorem bytesOf_append (a b : List QRecord) : bytesOf (a ++ b) = bytesOf a + bytesOf b := by
  induction a with
  | nil => simp
  | cons r rs ih => simp [ih, Nat.add_assoc]

theorem bytesOf_drop_le (k : Nat) (l : List QRecord) : bytesOf (l.drop k) ≤ bytesOf l := by
  have h := congrArg bytesOf (List.take_append_drop k l)
  rw [bytesOf_append] at h
  omega

/-! ### Sequence numbers and gaps (R117, R118) -/

theorem SeqRun.tail {next : Byte} {r : QRecord} {rs : List QRecord} (h : SeqRun next (r :: rs)) : SeqRun next rs := h.2

theorem SeqRun.drop {next : Byte} {l : List QRecord} (h : SeqRun next l) (k : Nat) : SeqRun next (l.drop k) := by
  induction l generalizing k with
  | nil => simpa using h
  | cons r rs ih =>
    cases k with
    | zero => exact h
    | succ k => exact ih h.2 k

/-- A run of numbers grows by a record that carries the next number. -/
theorem SeqRun.append {next : Byte} {l : List QRecord} (h : SeqRun next l) {r : QRecord} (hr : r.seq = next) :
    SeqRun (next + 1#8) (l ++ [r]) := by
  induction l with
  | nil => simp [SeqRun, hr]
  | cons x xs ih =>
    refine ⟨?_, ih h.2⟩
    cases xs with
    | nil => exact h.1.trans hr.symm
    | cons y ys => exact h.1

theorem GapsPaired.drop {l : List QRecord} (h : GapsPaired l) (k : Nat) : GapsPaired (l.drop k) := by
  induction l generalizing k with
  | nil => simpa using h
  | cons r rs ih =>
    cases k with
    | zero => exact h
    | succ k => exact ih h.2 k

theorem GapsPaired.append {a b : List QRecord} (ha : GapsPaired a) (hb : GapsPaired b) : GapsPaired (a ++ b) := by
  induction a with
  | nil => exact hb
  | cons x xs ih =>
    refine ⟨fun hx => ?_, ih ha.2⟩
    obtain ⟨y, ys, rfl, hy⟩ := ha.1 hx
    exact ⟨y, ys ++ b, rfl, hy⟩

/-! ### Evictions (R122) -/

/-- The evictions remove some number of records from the oldest end, the fewest that make room. -/
theorem evictUntil_eq_drop (need : Nat) (l : List QRecord) :
    ∃ k, k ≤ l.length ∧ evictUntil need l = l.drop k ∧ (∀ j, j < k → 128 - bytesOf (l.drop j) < need) ∧
      (k < l.length → need ≤ 128 - bytesOf (l.drop k)) := by
  induction l with
  | nil => exact ⟨0, by simp [evictUntil]⟩
  | cons r rs ih =>
    by_cases h : need ≤ 128 - bytesOf (r :: rs)
    · exact ⟨0, Nat.zero_le _, by simp only [evictUntil, h, if_pos, List.drop_zero], by simp, fun _ => h⟩
    · obtain ⟨k, hk, e, hlt, hge⟩ := ih
      refine ⟨k + 1, by simpa using hk, ?_, ?_, by simpa using hge⟩
      · simp only [evictUntil, h, if_neg, not_false_eq_true, List.drop_succ_cons, e]
      · intro j hj
        cases j with
        | zero => simpa using h
        | succ j => exact hlt j (by omega)

/-- After the evictions there is room for any need up to the whole queue. -/
theorem evictUntil_room {need : Nat} (hn : need ≤ 128) (l : List QRecord) : need ≤ 128 - bytesOf (evictUntil need l) := by
  induction l with
  | nil => simpa [evictUntil] using hn
  | cons r rs ih =>
    simp only [evictUntil]
    split
    · assumption
    · exact ih

/-! ### Insertions (R119 to R123) -/

variable (q : ResultQueue) (b : RecordBody)

theorem neededSpace_bounds : 5 ≤ neededSpace q b ∧ neededSpace q b ≤ 11 := by
  have := b.length_bounds
  unfold neededSpace
  split <;> omega

/-- The records a stored insertion appends, oldest first. -/
def addedRecords (q : ResultQueue) (b : RecordBody) : List QRecord :=
  if q.pendingGap = 0#8 then [.result q.nextSeq b] else [.gap q.nextSeq q.pendingGap, .result (q.nextSeq + 1#8) b]

theorem storeRecord_eq : storeRecord b q = { q with
    records := q.records ++ addedRecords q b
    nextSeq := q.nextSeq + BitVec.ofNat 8 (addedRecords q b).length
    pendingGap := 0#8 } := by
  unfold storeRecord addedRecords
  split
  · next h => simp [h]
  · simp

theorem bytesOf_added : bytesOf (addedRecords q b) = neededSpace q b := by
  unfold addedRecords neededSpace
  split <;> simp [QRecord.length, Nat.add_comm]

/-- The course of an insertion is decided by the space, the policy and the open record (R119). -/
theorem insertRecord_cases :
    (neededSpace q b ≤ q.free ∧ courseOf q b = .store ∧ insertRecord b q = storeRecord b q) ∨
    (q.free < neededSpace q b ∧ q.policy = .overwrite ∧ q.readIndex = none ∧ courseOf q b = .evict ∧
      insertRecord b q = storeRecord b (evictRecords (neededSpace q b) q)) ∨
    (q.free < neededSpace q b ∧ (q.policy = .dropNew ∨ q.readIndex ≠ none) ∧ courseOf q b = .drop ∧
      insertRecord b q = dropRecord q) := by
  by_cases h : neededSpace q b ≤ q.free
  · exact .inl ⟨h, by simp [courseOf, h], by simp [insertRecord, courseOf, h]⟩
  · have h' : q.free < neededSpace q b := by omega
    cases hp : q.policy <;> cases hr : q.readIndex
    · exact .inr (.inr ⟨h', .inl rfl, by simp [courseOf, h, hp], by simp [insertRecord, courseOf, h, hp]⟩)
    · exact .inr (.inr ⟨h', .inl rfl, by simp [courseOf, h, hp], by simp [insertRecord, courseOf, h, hp]⟩)
    · exact .inr (.inl ⟨h', rfl, rfl, by simp [courseOf, h, hp, hr], by simp [insertRecord, courseOf, h, hp, hr]⟩)
    · exact .inr (.inr ⟨h', .inr (by simp), by simp [courseOf, h, hp, hr], by simp [insertRecord, courseOf, h, hp, hr]⟩)

/-- An offer changes the queue and the latches QOVER and QREADY, and nothing else (R125, R126). -/
theorem offerRecord_eq (s : State) :
    offerRecord b s = { s with
      rq := insertRecord b s.rq
      sysLatch := { s.sysLatch with
        qover := s.sysLatch.qover || (courseOf s.rq b != .store)
        qready := s.sysLatch.qready || reachesWatermark s.rq (insertRecord b s.rq) } } := by
  unfold offerRecord
  dsimp only
  by_cases h1 : courseOf s.rq b = .store <;> cases h2 : reachesWatermark s.rq (insertRecord b s.rq) <;>
    simp [h1, setQover, setQready, State.setQueue, State.setSysLatch]

@[simp] theorem offerRecord_task (s : State) (n : Slot) : (offerRecord b s).task n = s.task n := by
  rw [offerRecord_eq]
  rfl

/-! ### Reading and removing (R127 to R133) -/

variable {q}

theorem advanceRead_empty (h : q.records = []) : advanceRead q = q := by
  simp [advanceRead, h]

theorem advanceRead_open {r : QRecord} {rs : List QRecord} (h : q.records = r :: rs) (hi : q.readIndex = none) :
    advanceRead q = { q with readIndex := some 1 } := by
  simp [advanceRead, h, hi]

theorem advanceRead_next {r : QRecord} {rs : List QRecord} {i : Nat} (h : q.records = r :: rs) (hi : q.readIndex = some i)
    (hl : i + 1 < r.length) : advanceRead q = { q with readIndex := some (i + 1) } := by
  simp [advanceRead, h, hi, hl]

theorem advanceRead_retire {r : QRecord} {rs : List QRecord} {i : Nat} (h : q.records = r :: rs)
    (hi : q.readIndex = some i) (hl : r.length ≤ i + 1) : advanceRead q = { q with records := rs, readIndex := none } := by
  have : ¬ i + 1 < r.length := by omega
  simp [advanceRead, removeOldest, h, hi, this]

end Sys2Proof.Machine
end

