-- ==== Sys2Proof/Laws/Scheduler.lean ====
section
/-! SUPPORT. What the Scheduler's shared operations can do: placement and removal of entries, due causes, the tick
expiry, edges, the end of a halt. -/

namespace Sys2Proof.Machine

/-! ### The Run Queue -/

@[simp] theorem mem_placeNormal {e x : RunEntry} {q : List RunEntry} : x ∈ placeNormal e q ↔ x = e ∨ x ∈ q := by
  induction q with
  | nil => simp [placeNormal]
  | cons y ys ih =>
    simp only [placeNormal]
    split
    · simp [ih, or_left_comm]
    · simp

/-- A placement adds one entry and keeps the rest. -/
theorem placeNormal_perm (e : RunEntry) (q : List RunEntry) : (placeNormal e q).Perm (e :: q) := by
  induction q with
  | nil => simp [placeNormal]
  | cons y ys ih =>
    simp only [placeNormal]
    split
    · exact (ih.cons y).trans (.swap e y ys)
    · exact .refl _

theorem placeNormal_ranks {e : RunEntry} {q : List RunEntry} (h : q.Pairwise fun a b => b.rank ≤ a.rank) :
    (placeNormal e q).Pairwise fun a b => b.rank ≤ a.rank := by
  induction q with
  | nil => simp [placeNormal]
  | cons y ys ih =>
    rw [List.pairwise_cons] at h
    simp only [placeNormal]
    split
    · next hy =>
      refine List.pairwise_cons.2 ⟨fun x hx => ?_, ih h.2⟩
      rcases mem_placeNormal.1 hx with rfl | hx
      · exact hy
      · exact h.1 x hx
    · next hy =>
      have hy' : y.rank ≤ e.rank := by omega
      refine List.pairwise_cons.2 ⟨fun x hx => ?_, List.pairwise_cons.2 h⟩
      rcases List.mem_cons.1 hx with rfl | hx
      · exact hy'
      · exact le_trans (h.1 x hx) hy'

/-- An entry made for slot n adds one entry of slot n and keeps the rest. -/
theorem placeEntry_perm (kind : EntryKind) (n : Slot) (p : Fin 4) (q : List RunEntry) :
    ∃ e : RunEntry, e.slot = n ∧ (placeEntry kind n p q).Perm (e :: q) := by
  cases kind with
  | normal => exact ⟨_, rfl, placeNormal_perm _ q⟩
  | chained => exact ⟨_, rfl, .refl _⟩

theorem placeEntry_ranks (kind : EntryKind) (n : Slot) (p : Fin 4) {q : List RunEntry}
    (h : q.Pairwise fun a b => b.rank ≤ a.rank) :
    (placeEntry kind n p q).Pairwise fun a b => b.rank ≤ a.rank := by
  cases kind with
  | normal => exact placeNormal_ranks h
  | chained => exact List.pairwise_cons.2 ⟨fun x _ => by have := x.rank.isLt; simp only [Fin.le_def]; omega, h⟩

@[simp] theorem mem_removeEntry {n : Slot} {x : RunEntry} {q : List RunEntry} :
    x ∈ removeEntry n q ↔ x ∈ q ∧ x.slot ≠ n := by
  simp [removeEntry]

theorem removeEntry_sublist (n : Slot) (q : List RunEntry) : (removeEntry n q).Sublist q := List.filter_sublist

/-! ### Due causes (R31, R32) -/

variable (s : State)

@[simp] theorem missTask_runQueue (n : Slot) : (missTask n s).runQueue = s.runQueue := rfl

@[simp] theorem missTask_sysLatch (n : Slot) : (missTask n s).sysLatch = { s.sysLatch with miss := true } := rfl

theorem missTask_task (n m : Slot) : (missTask n s).task m =
    if m = n then { s.task n with rt := { (s.task n).rt with missCount := satInc (s.task n).rt.missCount } }
    else s.task m :=
  State.modRuntime_task s n m fun r => { r with missCount := satInc r.missCount }

theorem enterTask_task (kind : EntryKind) (n m : Slot) : (enterTask kind n s).task m =
    if m = n then { s.task n with rt := { (s.task n).rt with state := .queued } } else s.task m :=
  State.setTaskState_task s n m _

theorem makeDue_armed {kind : EntryKind} {n : Slot} (h : (s.task n).rt.state = .armed) :
    makeDue kind n s = enterTask kind n s := by
  simp [makeDue, h]

theorem makeDue_busy {kind : EntryKind} {n : Slot} (h : (s.task n).rt.state = .queued ∨ (s.task n).rt.state = .converting) :
    makeDue kind n s = missTask n s := by
  rcases h with h | h <;> simp [makeDue, h]

theorem makeDue_stopped {kind : EntryKind} {n : Slot} (h : (s.task n).rt.state = .stopped) : makeDue kind n s = s := by
  simp [makeDue, h]

/-- All a due cause can do: enter an ARMED task, count a miss of a busy one, nothing to a STOPPED one. -/
theorem makeDue_cases (kind : EntryKind) (n : Slot) :
    ((s.task n).rt.state = .armed ∧ makeDue kind n s = enterTask kind n s) ∨
    (((s.task n).rt.state = .queued ∨ (s.task n).rt.state = .converting) ∧ makeDue kind n s = missTask n s) ∨
    ((s.task n).rt.state = .stopped ∧ makeDue kind n s = s) := by
  unfold makeDue
  cases h : (s.task n).rt.state <;> simp

/-- A due cause changes the task table, the Run Queue and the MISS latch, and nothing else. -/
theorem makeDue_frame (kind : EntryKind) (n : Slot) :
    makeDue kind n s = { s with
      tasks := (makeDue kind n s).tasks
      runQueue := (makeDue kind n s).runQueue
      sysLatch := { s.sysLatch with miss := (makeDue kind n s).sysLatch.miss } } := by
  rcases makeDue_cases s kind n with ⟨_, h⟩ | ⟨_, h⟩ | ⟨_, h⟩ <;> rw [h] <;> rfl

theorem makeDue_task_other {kind : EntryKind} {n m : Slot} (hm : m ≠ n) : (makeDue kind n s).task m = s.task m := by
  rcases makeDue_cases s kind n with ⟨_, h⟩ | ⟨_, h⟩ | ⟨_, h⟩ <;> rw [h]
  · simp [enterTask_task, hm]
  · simp [missTask_task, hm]

@[simp] theorem makeDue_cfg (kind : EntryKind) (n m : Slot) : ((makeDue kind n s).task m).cfg = (s.task m).cfg := by
  rcases makeDue_cases s kind n with ⟨_, h⟩ | ⟨_, h⟩ | ⟨_, h⟩ <;> rw [h]
  · rw [enterTask_task]
    split <;> simp_all
  · rw [missTask_task]
    split <;> simp_all

@[simp] theorem makeDue_pending (kind : EntryKind) (n : Slot) : (makeDue kind n s).pending = s.pending := by
  rw [makeDue_frame]
@[simp] theorem makeDue_conv (kind : EntryKind) (n : Slot) : (makeDue kind n s).conv = s.conv := by
  rw [makeDue_frame]
@[simp] theorem makeDue_rq (kind : EntryKind) (n : Slot) : (makeDue kind n s).rq = s.rq := by
  rw [makeDue_frame]
@[simp] theorem makeDue_runState (kind : EntryKind) (n : Slot) : (makeDue kind n s).runState = s.runState := by
  rw [makeDue_frame]

/-! ### The end of a halt (R50) -/

theorem endHalt_halting (h : s.runState = .halting) :
    endHalt s = { s with runState := .halted, sysLatch := { s.sysLatch with halted := true } } := by
  simp [endHalt, h, setHalted, State.setRunState, State.setSysLatch]

theorem endHalt_other (h : s.runState ≠ .halting) : endHalt s = s := by
  simp [endHalt, h]

@[simp] theorem endHalt_task (m : Slot) : (endHalt s).task m = s.task m := by
  unfold endHalt
  split <;> rfl

/-- The end of a conversion changes the run state and the HALTED latch, and those only in a halt in progress. -/
theorem endHalt_eq : endHalt s = { s with
    runState := if s.runState = .halting then .halted else s.runState
    sysLatch := { s.sysLatch with halted := s.sysLatch.halted || (s.runState == .halting) } } := by
  by_cases h : s.runState = .halting
  · rw [endHalt_halting s h]
    simp [h]
  · rw [endHalt_other s h, beq_eq_false_iff_ne.2 h]
    simp [h]

/-! ### The Tick Timer (R25, R27, R29, R30) -/

theorem countdownStep_idle {n : Slot} (h : countdownActive (s.task n) = false) : countdownStep s n = s := by
  simp [countdownStep, h]

/-- The part of an expiry at one slot changes the task table, the Run Queue and the MISS latch, and nothing else. -/
theorem countdownStep_frame (n : Slot) :
    countdownStep s n = { s with
      tasks := (countdownStep s n).tasks
      runQueue := (countdownStep s n).runQueue
      sysLatch := { s.sysLatch with miss := (countdownStep s n).sysLatch.miss } } := by
  unfold countdownStep
  dsimp only
  split
  · split
    · rw [makeDue_frame]
      rfl
    · rfl
  · rfl

theorem countdownStep_task_other {n m : Slot} (hm : m ≠ n) : (countdownStep s n).task m = s.task m := by
  unfold countdownStep
  dsimp only
  split
  · split
    · rw [makeDue_task_other _ hm, State.modRuntime_task_other _ hm]
    · rw [State.modRuntime_task_other _ hm]
  · rfl

@[simp] theorem countdownStep_cfg (n m : Slot) : ((countdownStep s n).task m).cfg = (s.task m).cfg := by
  unfold countdownStep
  dsimp only
  split
  · split <;> simp
  · rfl

/-- A property of the state that every slot's part of an expiry keeps is kept by the whole pass over the slots. -/
theorem moveCountdowns_keeps {P : State → Prop} (h : ∀ (t : State) (n : Slot), P t → P (countdownStep t n)) (hs : P s) :
    P (moveCountdowns s) := by
  unfold moveCountdowns
  generalize allSlots = l
  induction l generalizing s with
  | nil => exact hs
  | cons n l ih => exact ih _ (h s n hs)

theorem tickExpiry_running (h : s.runState = .running) :
    tickExpiry s = moveCountdowns { s with tickPeriod := s.tickDiv, tickCount := s.tickCount + 1#16 } := by
  simp [tickExpiry, h]

theorem tickExpiry_halted (h : s.runState ≠ .running) :
    tickExpiry s = { s with tickPeriod := s.tickDiv, tickCount := s.tickCount + 1#16 } := by
  simp [tickExpiry, h]

/-! ### The TRIG input (R34, R35) -/

theorem edgeStep_cases (n : Slot) :
    ((s.task n).cfg.mode = .external ∧ edgeStep s n = makeDue .normal n s) ∨
    ((s.task n).cfg.mode ≠ .external ∧ edgeStep s n = s) := by
  unfold edgeStep
  split
  · exact .inl ⟨‹_›, rfl⟩
  · exact .inr ⟨‹_›, rfl⟩

/-- A property of the state that a due cause keeps is kept by a recognised edge, given the new reference level. -/
theorem recognisedEdge_keeps {P : State → Prop} (h : ∀ (t : State) (n : Slot), P t → P (makeDue .normal n t))
    (hs : P { s with trigRef := otherLevel s.trigRef }) : P (recognisedEdge s) := by
  unfold recognisedEdge
  dsimp only
  split
  · generalize allSlots = l
    generalize ({ s with trigRef := otherLevel s.trigRef } : State) = t at hs
    induction l generalizing t with
    | nil => exact hs
    | cons n l ih =>
      refine ih _ ?_
      rcases edgeStep_cases t n with ⟨_, e⟩ | ⟨_, e⟩ <;> rw [e]
      · exact h t n hs
      · exact hs
  · exact hs

end Sys2Proof.Machine
end

