-- ==== Sys2Proof/Laws/Conversion.lean ====
section
/-! SUPPORT. What the Conversion Unit's operations and the parts of a delivery can do. -/

namespace Sys2Proof.Machine

variable {s : State}

/-! ### The events of the unit (R42, R57 to R62) -/

theorem takeHead_taken {e : RunEntry} {rest : List RunEntry} (hc : s.conv = none) (hr : s.runState = .running)
    (hq : s.runQueue = e :: rest) :
    takeHead s = ((s.setTaskState e.slot .converting).setRunQueue rest).setConv
      (some (startConversion e.slot (s.task e.slot))) := by
  simp [takeHead, hc, hr, hq]

theorem takeHead_not (h : s.conv ≠ none ∨ s.runState ≠ .running ∨ s.runQueue = []) : takeHead s = s := by
  unfold takeHead
  split
  · simp_all
  · rfl

theorem endSettling_eq {c : Conversion} (hc : s.conv = some c) (hp : c.phase = .settling) :
    endSettling s = s.setConv (some { c with phase := if c.params.policy = .auto then .ranging else .sampling }) := by
  simp [endSettling, hc, hp]

theorem endSettling_not (h : ∀ c, s.conv = some c → c.phase ≠ .settling) : endSettling s = s := by
  unfold endSettling
  split
  · next c hc => simp [h c hc]
  · rfl

theorem endRanging_eq {c : Conversion} (hc : s.conv = some c) (hp : c.phase = .ranging) (v : BitVec 6) :
    endRanging v s =
      s.setConv (some { c with phase := .sampling, coarse := some v, workingGain := autoGain v c.workingGain }) := by
  simp [endRanging, hc, hp]

theorem endRanging_not (h : ∀ c, s.conv = some c → c.phase ≠ .ranging) (v : BitVec 6) : endRanging v s = s := by
  unfold endRanging
  split
  · next c hc => simp [h c hc]
  · rfl

theorem moreAfterNext_iff (c : Conversion) :
    moreAfterNext c = true ↔ c.phase = .sampling ∧ c.samples + 1 < c.params.avg.count := by
  simp [moreAfterNext]

theorem nextCompletes_iff (c : Conversion) :
    nextCompletes c = true ↔ c.phase = .sampling ∧ c.samples + 1 = c.params.avg.count := by
  simp [nextCompletes]

theorem takeSample_eq {c : Conversion} (hc : s.conv = some c) (h : moreAfterNext c = true) (code : BitVec 12) (o : Bool) :
    takeSample code o s = s.setConv (some (addSample c code o)) := by
  simp [takeSample, hc, h]

theorem takeSample_not (h : ∀ c, s.conv = some c → moreAfterNext c = false) (code : BitVec 12) (o : Bool) :
    takeSample code o s = s := by
  unfold takeSample
  split
  · next c hc => simp [h c hc]
  · rfl

theorem completeConversion_eq {c : Conversion} (hc : s.conv = some c) (h : nextCompletes c = true) (code : BitVec 12)
    (o : Bool) : completeConversion code o s = deliverResult (formResult (addSample c code o)) s := by
  simp [completeConversion, hc, h]

theorem completeConversion_not (h : ∀ c, s.conv = some c → nextCompletes c = false) (code : BitVec 12) (o : Bool) :
    completeConversion code o s = s := by
  unfold completeConversion
  split
  · next c hc => simp [h c hc]
  · rfl

/-! ### Codes and N (R61 to R63, R82, R83) -/

theorem sampleCode_le (r : Resolution) (code : BitVec 12) (o : Bool) : sampleCode r code o ≤ r.fullScale := by
  unfold sampleCode
  split
  · exact le_refl _
  · exact min_le_right _ _

theorem Resolution.fullScale_lt (r : Resolution) : r.fullScale < 4096 := by
  cases r <;> decide

/-- The averaged code of a sum within the codes' range is within the range too. -/
theorem formResult_code {c : Conversion} (h : c.sum ≤ c.params.avg.count * c.params.res.fullScale) :
    (formResult c).code.toNat = c.sum / c.params.avg.count ∧ (formResult c).code.toNat ≤ c.params.res.fullScale := by
  have hd : c.sum / c.params.avg.count ≤ c.params.res.fullScale := Nat.div_le_of_le_mul h
  have hf := c.params.res.fullScale_lt
  have : (formResult c).code.toNat = c.sum / c.params.avg.count := by
    simp only [formResult, BitVec.toNat_ofNat]
    exact Nat.mod_eq_of_lt (by omega)
  exact ⟨this, this ▸ hd⟩

/-! ### The Window Monitor (R88 to R96) -/

/-- A zone evaluation never yields UNKNOWN. -/
theorem evaluateZone_known (c : TaskConfig) (z : Zone) (n : Nat) (o : Bool) : evaluateZone c z n o ≠ .unknown := by
  unfold evaluateZone
  split
  · decide
  · cases z <;> simp only [zoneByLimits, zoneFromAbove, zoneFromBelow] <;> split <;> (try split) <;> decide

theorem windowPart_eq (o : WindowOutcome) (s : State) :
    windowPart o s =
      { s.modRuntime o.slot (storeOutcome o) with
        taskLatch := if o.fired then s.taskLatch ||| latchBit o.slot else s.taskLatch } := by
  unfold windowPart
  cases o.fired <;> rfl

@[simp] theorem windowPart_task (o : WindowOutcome) (s : State) (n : Slot) :
    (windowPart o s).task n = (s.modRuntime o.slot (storeOutcome o)).task n := by
  rw [windowPart_eq]
  rfl

theorem latchBit_getLsbD (n m : Slot) : (latchBit n).getLsbD m.val = decide (m = n) := by
  simp [latchBit, Fin.ext_iff, eq_comm]

/-! ### The Record Builder (R103 to R109) -/

theorem recordPart_kept {o : WindowOutcome} (h : keepsRecord (s.task o.slot) o.fired = true) :
    recordPart o s = offerRecord (composeRecord (s.task o.slot) s.tickCount o)
      (s.modRuntime o.slot fun x => { x with decCount := nextDecCount (s.task o.slot), missCount := 0#8 }) := by
  unfold recordPart
  rw [if_pos h, State.modRuntime_modRuntime]

theorem recordPart_not_kept {o : WindowOutcome} (h : keepsRecord (s.task o.slot) o.fired = false) :
    recordPart o s = s.modRuntime o.slot fun x => { x with decCount := nextDecCount (s.task o.slot) } := by
  simp [recordPart, h]

/-- The Record Builder's part changes the delivering task's two counts, the Result Queue, QOVER and QREADY. -/
theorem recordPart_frame (o : WindowOutcome) (s : State) :
    recordPart o s = { s with
      tasks := (recordPart o s).tasks
      rq := (recordPart o s).rq
      sysLatch := { s.sysLatch with
        qover := (recordPart o s).sysLatch.qover
        qready := (recordPart o s).sysLatch.qready } } := by
  cases h : keepsRecord (s.task o.slot) o.fired
  · rw [recordPart_not_kept h]
    rfl
  · rw [recordPart_kept h, offerRecord_eq]
    rfl

theorem recordPart_task (o : WindowOutcome) (s : State) (n : Slot) :
    (recordPart o s).task n = if n = o.slot then
      { s.task o.slot with rt := { (s.task o.slot).rt with
        decCount := nextDecCount (s.task o.slot)
        missCount := if keepsRecord (s.task o.slot) o.fired then 0#8 else (s.task o.slot).rt.missCount } }
    else s.task n := by
  cases h : keepsRecord (s.task o.slot) o.fired
  · rw [recordPart_not_kept h, State.modRuntime_task]
    simp
  · rw [recordPart_kept h, offerRecord_task, State.modRuntime_task]
    simp

end Sys2Proof.Machine
end

