-- ==== Sys2Proof/Laws/Delivery.lean ====
section
/-! SUPPORT. What a delivery can do: the task records after the parts of the three measuring blocks, and the Scheduler's
part. -/

namespace Sys2Proof.Machine

/-- The state of a delivery when only the Scheduler's part is left. -/
def measured (r : ConvResult) (s : State) : State :=
  let o := windowOutcome (s.task r.slot) r
  conversionPart r (recordPart o (windowPart o s))

theorem deliverResult_eq (r : ConvResult) (s : State) : deliverResult r s = schedulerPart r.slot (measured r s) := rfl

/-- The record the delivering task is left with before the Scheduler's part: the stored outcome, the two counts of the
Record Builder, the gain used. -/
def measuredTask (r : ConvResult) (t : Task) : Task :=
  let o := windowOutcome t r
  { cfg := t.cfg
    rt := { storeOutcome o t.rt with
      decCount := nextDecCount t
      missCount := if keepsRecord t o.fired then 0#8 else t.rt.missCount
      gain := r.gain } }

/-- The Record Builder reads nothing of a task that the Window Monitor's part has changed. -/
theorem keepsRecord_storeOutcome (t : Task) (o : WindowOutcome) (f : Bool) :
    keepsRecord { t with rt := storeOutcome o t.rt } f = keepsRecord t f := rfl

theorem nextDecCount_storeOutcome (t : Task) (o : WindowOutcome) :
    nextDecCount { t with rt := storeOutcome o t.rt } = nextDecCount t := rfl

theorem composeRecord_storeOutcome (t : Task) (o : WindowOutcome) (k : Word16) :
    composeRecord { t with rt := storeOutcome o t.rt } k o = composeRecord t k o := rfl

variable (r : ConvResult) (s : State)

theorem measured_task_self : (measured r s).task r.slot = measuredTask r (s.task r.slot) := by
  simp [measured, conversionPart, recordPart_task, windowOutcome, measuredTask, keepsRecord_storeOutcome,
    nextDecCount_storeOutcome]
  rfl

theorem measured_task_other {n : Slot} (h : n ≠ r.slot) : (measured r s).task n = s.task n := by
  have h' : n ≠ (windowOutcome (s.task r.slot) r).slot := h
  simp [measured, conversionPart, State.modRuntime_task_other _ h, recordPart_task, State.modRuntime_task_other _ h', h']

@[simp] theorem measured_cfg (n : Slot) : ((measured r s).task n).cfg = (s.task n).cfg := by
  by_cases h : n = r.slot
  · subst h
    rw [measured_task_self]
    rfl
  · rw [measured_task_other r s h]

/-- The measuring blocks leave every task state as it was. -/
@[simp] theorem measured_state (n : Slot) : ((measured r s).task n).rt.state = (s.task n).rt.state := by
  by_cases h : n = r.slot
  · subst h
    rw [measured_task_self]
    rfl
  · rw [measured_task_other r s h]

/-- What the measuring blocks' parts of a delivery change: the task table, the Result Queue, the unit, the task latch of
the delivering task, QOVER and QREADY. -/
theorem measured_frame : measured r s = { s with
    tasks := (measured r s).tasks
    conv := none
    rq := (measured r s).rq
    taskLatch :=
      if (windowOutcome (s.task r.slot) r).fired then s.taskLatch ||| latchBit r.slot else s.taskLatch
    sysLatch := { s.sysLatch with
      qover := (measured r s).sysLatch.qover
      qready := (measured r s).sysLatch.qready } } := by
  simp only [measured, conversionPart]
  rw [recordPart_frame, windowPart_eq]
  rfl

/-- The Result Queue after a delivery whose result is kept. -/
theorem measured_kept (h : keepsRecord (s.task r.slot) (windowOutcome (s.task r.slot) r).fired = true) :
    let b := composeRecord (s.task r.slot) s.tickCount (windowOutcome (s.task r.slot) r)
    (measured r s).rq = insertRecord b s.rq ∧
    (measured r s).sysLatch.qover = (s.sysLatch.qover || (courseOf s.rq b != .store)) ∧
    (measured r s).sysLatch.qready = (s.sysLatch.qready || reachesWatermark s.rq (insertRecord b s.rq)) := by
  have ht : (windowPart (windowOutcome (s.task r.slot) r) s).task r.slot =
      { s.task r.slot with rt := storeOutcome (windowOutcome (s.task r.slot) r) (s.task r.slot).rt } := by
    rw [windowPart_task]
    exact State.modRuntime_task_same s r.slot _
  have hk : keepsRecord ((windowPart (windowOutcome (s.task r.slot) r) s).task
      (windowOutcome (s.task r.slot) r).slot) (windowOutcome (s.task r.slot) r).fired = true := by
    show keepsRecord (State.task _ r.slot) _ = true
    rw [ht, keepsRecord_storeOutcome]
    exact h
  simp only [measured, conversionPart]
  rw [recordPart_kept hk, offerRecord_eq]
  simp only [State.setConv_rq, State.modRuntime_rq, State.setConv_sysLatch, State.modRuntime_sysLatch]
  show insertRecord (composeRecord (State.task _ r.slot) _ _) _ = _ ∧ _
  rw [show (windowOutcome (s.task r.slot) r).slot = r.slot from rfl, ht, composeRecord_storeOutcome, windowPart_eq]
  exact ⟨rfl, rfl, rfl⟩

/-- A delivery whose result is not kept leaves the Result Queue and its latches as they were. -/
theorem measured_not_kept (h : keepsRecord (s.task r.slot) (windowOutcome (s.task r.slot) r).fired = false) :
    (measured r s).rq = s.rq ∧ (measured r s).sysLatch = s.sysLatch := by
  have hk : keepsRecord ((windowPart (windowOutcome (s.task r.slot) r) s).task
      (windowOutcome (s.task r.slot) r).slot) (windowOutcome (s.task r.slot) r).fired = false := by
    show keepsRecord (State.task _ r.slot) _ = false
    rw [windowPart_task]
    rw [show (s.modRuntime (windowOutcome (s.task r.slot) r).slot
      (storeOutcome (windowOutcome (s.task r.slot) r))).task r.slot = _ from State.modRuntime_task_same s r.slot _]
    exact h
  simp only [measured, conversionPart]
  rw [recordPart_not_kept hk, windowPart_eq]
  exact ⟨rfl, rfl⟩

/-! ### The Scheduler's part (R36, R46) -/

theorem leaveConverting_task (n m : Slot) : (leaveConverting n s).task m =
    if m = n then { s.task n with rt := { (s.task n).rt with
      state := if (s.task n).cfg.single then .stopped else .armed } }
    else s.task m :=
  State.setTaskState_task s n m _

theorem followLink_none {n : Slot} (h : (s.task n).cfg.link = none) : followLink n s = s := by
  simp [followLink, h]

theorem followLink_some {n t : Slot} (h : (s.task n).cfg.link = some t) : followLink n s = makeDue .chained t s := by
  simp [followLink, h]

/-- The Scheduler's part of a delivery changes the task table, the Run Queue, the run state and the latches MISS and
HALTED. -/
theorem schedulerPart_frame (n : Slot) : schedulerPart n s = { s with
    tasks := (schedulerPart n s).tasks
    runQueue := (schedulerPart n s).runQueue
    runState := if s.runState = .halting then .halted else s.runState
    sysLatch := { s.sysLatch with
      miss := (schedulerPart n s).sysLatch.miss
      halted := s.sysLatch.halted || (s.runState == .halting) } } := by
  unfold schedulerPart
  cases h : (s.task n).cfg.link with
  | none =>
    rw [followLink_none _ (by simpa [leaveConverting] using h), endHalt_eq]
    rfl
  | some t =>
    rw [followLink_some _ (t := t) (by simpa [leaveConverting] using h), endHalt_eq, makeDue_frame]
    rfl

@[simp] theorem schedulerPart_cfg (n m : Slot) : ((schedulerPart n s).task m).cfg = (s.task m).cfg := by
  unfold schedulerPart
  rw [endHalt_task]
  cases h : (s.task n).cfg.link with
  | none =>
    rw [followLink_none _ (by simpa [leaveConverting] using h)]
    simp [leaveConverting]
  | some t =>
    rw [followLink_some _ (t := t) (by simpa [leaveConverting] using h)]
    simp [leaveConverting]

/-- The delivering task after the Scheduler's part, when its link does not name itself. -/
theorem schedulerPart_task_self {n : Slot} (h : (s.task n).cfg.link ≠ some n) : (schedulerPart n s).task n =
    { s.task n with rt := { (s.task n).rt with state := if (s.task n).cfg.single then .stopped else .armed } } := by
  unfold schedulerPart
  rw [endHalt_task]
  cases hl : (s.task n).cfg.link with
  | none =>
    rw [followLink_none _ (by simpa [leaveConverting] using hl)]
    simp [leaveConverting_task]
  | some t =>
    rw [followLink_some _ (t := t) (by simpa [leaveConverting] using hl)]
    have : n ≠ t := fun e => h (by rw [hl, e])
    rw [makeDue_task_other _ this]
    simp [leaveConverting_task]

/-- A task that neither delivers nor is the link's target is not touched. -/
theorem schedulerPart_task_other {n m : Slot} (hm : m ≠ n) (h : (s.task n).cfg.link ≠ some m) :
    (schedulerPart n s).task m = s.task m := by
  unfold schedulerPart
  rw [endHalt_task]
  cases hl : (s.task n).cfg.link with
  | none =>
    rw [followLink_none _ (by simpa [leaveConverting] using hl)]
    simp [leaveConverting_task, hm]
  | some t =>
    rw [followLink_some _ (t := t) (by simpa [leaveConverting] using hl)]
    have : m ≠ t := fun e => h (by rw [hl, e])
    rw [makeDue_task_other _ this]
    simp [leaveConverting_task, hm]

end Sys2Proof.Machine
end

