-- ==== Sys2Proof/Laws/Exec.lean ====
section
/-! SUPPORT. What a command of a ready part answers: its effect, with what the part drives on D7 to D0. -/

namespace Sys2Proof.Machine

variable {s : State} (h : Ready s)

include h

/-! ### Writes: D7 to D0 are not driven (R151) -/

theorem exec_load_ready : exec .load s = .next (loadEffect (s.setDataOut none)) :=
  congrArg _ (takeWrite_ready h .load _)

theorem exec_commit_ready : exec .commit s = .next (commitEffect (s.setDataOut none)) :=
  congrArg _ (takeWrite_ready h .commit _)

theorem exec_start_ready : exec .start s = .next (startEffect (s.setDataOut none)) :=
  congrArg _ (takeWrite_ready h .start _)

theorem exec_stop_ready : exec .stop s = .next (stopEffect (s.setDataOut none)) :=
  congrArg _ (takeWrite_ready h .stop _)

theorem exec_trigger_ready : exec .trigger s = .next (triggerEffect (s.setDataOut none)) :=
  congrArg _ (takeWrite_ready h .trigger _)

theorem exec_halt_ready : exec .halt s = .next (haltEffect (s.setDataOut none)) :=
  congrArg _ (takeWrite_ready h .halt _)

theorem exec_resume_ready : exec .resume s = .next (resumeEffect (s.setDataOut none)) :=
  congrArg _ (takeWrite_ready h .resume _)

theorem exec_flush_ready : exec .flush s = .next (flushEffect (s.setDataOut none)) :=
  congrArg _ (takeWrite_ready h .flush _)

theorem exec_discard_ready : exec .discard s = .next (discardEffect (s.setDataOut none)) :=
  congrArg _ (takeWrite_ready h .discard _)

theorem exec_reset_ready (trig : Level) : exec (.reset trig) s = .next (resetEffect trig (s.setDataOut none)) :=
  congrArg _ (takeWrite_ready h (.reset trig) _)

theorem exec_stofsWrite_ready (v : Byte) : exec (.stofsWrite v) s = .next (stofsEffect v (s.setDataOut none)) :=
  congrArg _ (takeWrite_ready h (.stofsWrite v) _)

theorem exec_stdataWrite_ready (v : Byte) : exec (.stdataWrite v) s = .next (stdataWriteEffect v (s.setDataOut none)) :=
  congrArg _ (takeWrite_ready h (.stdataWrite v) _)

theorem exec_badCmd_ready {code : Byte} (hw : (Instr.badCmd code).wellFormed = true) :
    exec (.badCmd code) s = .next (badCmdEffect (s.setDataOut none)) := by
  simp only [exec, execBadCmd, hw, if_true, takeWrite_ready h]

theorem exec_registerWrite_ready {a : Addr} (hw : ∀ v, (Instr.registerWrite a v).wellFormed = true) (v : Byte) :
    exec (.registerWrite a v) s = .next (registerWriteEffect a v (s.setDataOut none)) := by
  simp only [exec, execRegisterWrite, hw v, if_true, takeWrite_ready h]

/-! ### Reads: D7 to D0 carry the register's value (R151, R154) -/

theorem exec_stdataRead_ready : exec .stdataRead s =
    .next (stdataReadEffect (readRegister 0x06#5 s) (s.setDataOut (some (readRegister 0x06#5 s)))) :=
  congrArg _ (takeRead_ready h .stdataRead _ _)

theorem exec_rqdataRead_ready : exec .rqdataRead s =
    .next (rqdataEffect (readRegister 0x07#5 s) (s.setDataOut (some (readRegister 0x07#5 s)))) :=
  congrArg _ (takeRead_ready h .rqdataRead _ _)

theorem exec_lostcntRead_ready : exec .lostcntRead s =
    .next (lostcntEffect (readRegister 0x0B#5 s) (s.setDataOut (some (readRegister 0x0B#5 s)))) :=
  congrArg _ (takeRead_ready h .lostcntRead _ _)

theorem exec_slatRead_ready : exec .slatRead s =
    .next (slatEffect (readRegister 0x0E#5 s) (s.setDataOut (some (readRegister 0x0E#5 s)))) :=
  congrArg _ (takeRead_ready h .slatRead _ _)

theorem exec_ticklRead_ready : exec .ticklRead s =
    .next (ticklEffect (readRegister 0x14#5 s) (s.setDataOut (some (readRegister 0x14#5 s)))) :=
  congrArg _ (takeRead_ready h .ticklRead _ _)

theorem exec_taskLatchRead_ready (half : LatchHalf) : exec (.taskLatchRead half) s =
    .next (taskLatchEffect half (readRegister (latchAddr half) s)
      (s.setDataOut (some (readRegister (latchAddr half) s)))) :=
  congrArg _ (takeRead_ready h (.taskLatchRead half) _ _)

/-! ### Events -/

theorem exec_trigEdge_ready (hold : TrigHold) : exec (.trigEdge hold) s = .next (edgeEvent hold s) :=
  congrArg _ (takeEvent_ready h _)

theorem exec_tick_ready : exec .tick s = .next (tickExpiry s) :=
  congrArg _ (takeEvent_ready h _)

theorem exec_countdownExpiry_ready (n : Slot) : exec (.countdownExpiry n) s = .next (expiryOf n s) :=
  congrArg _ (takeEvent_ready h _)

theorem exec_take_ready : exec .take s = .next (takeHead s) :=
  congrArg _ (takeEvent_ready h _)

theorem exec_settlingExpiry_ready : exec .settlingExpiry s = .next (endSettling s) :=
  congrArg _ (takeEvent_ready h _)

theorem exec_coarseConversionEnd_ready (c : BitVec 6) : exec (.coarseConversionEnd c) s = .next (endRanging c s) :=
  congrArg _ (takeEvent_ready h _)

theorem exec_sample_ready (code : BitVec 12) (o : Bool) : exec (.sample code o) s = .next (takeSample code o s) :=
  congrArg _ (takeEvent_ready h _)

theorem exec_delivery_ready (code : BitVec 12) (o : Bool) : exec (.delivery code o) s = .next (completeConversion code o s) :=
  congrArg _ (takeEvent_ready h _)

end Sys2Proof.Machine
end

