-- ==== Sys2Proof/Laws/Encodings.lean ====
section
/-! SUPPORT. The encodings: two-byte quantities, bit fields and their decoding, the Stage image. -/

namespace Sys2Proof.Machine

/-! ### Two-byte quantities (R12) -/

theorem hiByte_toNat (w : Word16) : (hiByte w).toNat = w.toNat / 256 := by
  have := w.isLt
  simp only [hiByte, BitVec.extractLsb'_toNat, Nat.shiftRight_eq_div_pow]
  omega

theorem loByte_toNat (w : Word16) : (loByte w).toNat = w.toNat % 256 := by
  simp [loByte]

theorem joinBytes_toNat (h l : Byte) : (joinBytes h l).toNat = 256 * h.toNat + l.toNat := by
  have hl := l.isLt
  show (HAppend.hAppend h l : BitVec (8 + 8)).toNat = _
  rw [BitVec.toNat_append, Nat.shiftLeft_eq, Nat.mul_comm, ← Nat.two_pow_add_eq_or_of_lt hl]

/-- A two-byte quantity is put together again from its bytes. -/
@[simp] theorem joinBytes_hi_lo (w : Word16) : joinBytes (hiByte w) (loByte w) = w := by
  apply BitVec.eq_of_toNat_eq
  rw [joinBytes_toNat, hiByte_toNat, loByte_toNat]
  omega

@[simp] theorem hiByte_join (h l : Byte) : hiByte (joinBytes h l) = h := by
  apply BitVec.eq_of_toNat_eq
  have := l.isLt
  rw [hiByte_toNat, joinBytes_toNat]
  omega

@[simp] theorem loByte_join (h l : Byte) : loByte (joinBytes h l) = l := by
  apply BitVec.eq_of_toNat_eq
  have := l.isLt
  rw [loByte_toNat, joinBytes_toNat]
  omega

@[simp] theorem limitWord_toNat (v : BitVec 15) : (limitWord v).toNat = v.toNat := by
  show (HAppend.hAppend 0#1 v : BitVec (1 + 15)).toNat = _
  rw [BitVec.toNat_append]
  simp

@[simp] theorem hystWord_toNat (v : BitVec 14) : (hystWord v).toNat = v.toNat := by
  show (HAppend.hAppend 0#2 v : BitVec (2 + 14)).toNat = _
  rw [BitVec.toNat_append]
  simp

/-! ### The named values and their encodings (R12) -/

@[simp] theorem startModeOf_enc (m : StartMode) : startModeOf m.enc = m := by cases m <;> rfl
@[simp] theorem recordModeOf_enc (m : RecordMode) : recordModeOf m.enc = m := by cases m <;> rfl
@[simp] theorem resolutionOf_enc (r : Resolution) : resolutionOf r.enc = some r := by cases r <;> rfl
@[simp] theorem averagingOf_enc (a : Averaging) : averagingOf a.enc = a := by cases a <;> rfl
@[simp] theorem gainPolicyOf_enc (p : GainPolicy) : gainPolicyOf p.enc = some p := by cases p <;> rfl
@[simp] theorem trigSettingOf_enc (t : TrigSetting) : trigSettingOf t.enc = t := by cases t <;> rfl

@[simp] theorem enc_startModeOf (b : BitVec 2) : (startModeOf b).enc = b := by revert b; decide
@[simp] theorem enc_recordModeOf (b : BitVec 2) : (recordModeOf b).enc = b := by revert b; decide
@[simp] theorem enc_averagingOf (b : BitVec 2) : (averagingOf b).enc = b := by revert b; decide
@[simp] theorem enc_trigSettingOf (b : BitVec 2) : (trigSettingOf b).enc = b := by revert b; decide

theorem enc_of_resolutionOf {b : BitVec 2} {r : Resolution} (h : resolutionOf b = some r) : r.enc = b := by
  revert b r
  decide +revert

theorem enc_of_gainPolicyOf {b : BitVec 3} {p : GainPolicy} (h : gainPolicyOf b = some p) : p.enc = b := by
  revert b p
  decide +revert

/-! ### The fields read back from the image's bytes (R12) -/

theorem modeByte_fields (c : TaskConfig) :
    startModeOf ((modeByte c).extractLsb' 6 2) = c.mode ∧ (modeByte c).getLsbD 5 = c.single ∧
    (modeByte c).getLsbD 4 = c.stamp ∧ recordModeOf ((modeByte c).extractLsb' 2 2) = c.recMode ∧
    ((modeByte c).extractLsb' 0 2).toFin = c.priority ∧ (modeByte c).extractLsb' 6 2 = c.mode.enc := by
  obtain ⟨mode, single, stamp, recMode, priority, _⟩ := c
  simp only [modeByte]
  cases mode <;> cases recMode <;> revert single stamp priority <;> decide

theorem inputByte_fields (c : TaskConfig) :
    ((inputByte c).extractLsb' 4 4).toFin = c.channel ∧ resolutionOf ((inputByte c).extractLsb' 2 2) = some c.res ∧
    averagingOf ((inputByte c).extractLsb' 0 2) = c.avg := by
  obtain ⟨_, _, _, _, _, channel, res, avg, _⟩ := c
  simp only [inputByte]
  cases res <;> cases avg <;> revert channel <;> decide

theorem frontByte_fields (c : TaskConfig) :
    gainPolicyOf ((frontByte c).extractLsb' 5 3) = some c.policy ∧ ((frontByte c).extractLsb' 1 4).toFin = c.settle ∧
    (frontByte c).getLsbD 0 = false := by
  obtain ⟨_, _, _, _, _, _, _, _, policy, settle, _⟩ := c
  simp only [frontByte]
  cases policy <;> revert settle <;> decide

theorem eventsByte_fields (c : TaskConfig) :
    (eventsByte c).getLsbD 7 = c.firstZone ∧ (eventsByte c).getLsbD 6 = c.enAbove ∧ (eventsByte c).getLsbD 5 = c.enInside ∧
    (eventsByte c).getLsbD 4 = c.enBelow ∧ ((eventsByte c).extractLsb' 0 4).toFin = c.decim := by
  obtain ⟨_, _, _, _, _, _, _, _, _, _, fz, ea, ei, eb, decim, _⟩ := c
  simp only [eventsByte]
  revert fz ea ei eb decim
  decide

theorem linkByte_fields (c : TaskConfig) : linkOf (linkByte c) = c.link ∧ (linkByte c).extractLsb' 4 3 = 0#3 := by
  unfold linkByte
  cases c.link with
  | none => decide
  | some m => revert m; decide

/-! ### Result codes -/

/-- The result codes are told apart by their bytes (R157). -/
theorem ResultCode.byte_injective : Function.Injective ResultCode.byte := by
  intro a b h
  cases a <;> cases b <;> first | rfl | exact absurd h (by decide)

/-! ### The offset of the Stage (R10, R11) -/

/-- STOFS advances by one, from 23 to 0. -/
theorem Stage.advance_ofs (x : Stage) :
    (x.ofs.val < 23 → x.advance.ofs.val = x.ofs.val + 1) ∧ (x.ofs.val = 23 → x.advance.ofs.val = 0) := by
  obtain ⟨_, k⟩ := x
  simp only [Stage.advance]
  revert k
  decide

/-- A byte written to the Stage stands at its position and at no other (R11). -/
theorem stage_read_after_write (img : Vector Byte 24) (k i : Fin 24) (v : Byte) :
    (img.set k v)[i] = if i = k then v else img[i] := by
  by_cases h : i = k
  · subst h
    simp
  · have h' : k.val ≠ i.val := fun e => h (Fin.ext e.symm)
    simp [h, h']

end Sys2Proof.Machine
end

