-- ==== Sys2Proof/Laws/Links.lean ====
section
/-! SUPPORT. Following links: chains, their lengths in a table without cycles, and the walk of the link check (R19). -/

namespace Sys2Proof.Machine

variable (tasks : TaskTable)

theorem followLinks_none {n : Slot} (h : tasks[n].cfg.link = none) (k : Nat) : followLinks tasks (k + 1) n = none := by
  simp only [followLinks, h]

theorem followLinks_some {n u : Slot} (h : tasks[n].cfg.link = some u) (k : Nat) :
    followLinks tasks (k + 1) n = followLinks tasks k u := by
  simp only [followLinks, h]

/-- Following a + b links is following b links from where a links lead. -/
theorem followLinks_add {a : Nat} (b : Nat) {t x : Slot} (h : followLinks tasks a t = some x) :
    followLinks tasks (a + b) t = followLinks tasks b x := by
  induction a generalizing t with
  | zero =>
    simp only [followLinks, Option.some.injEq] at h
    rw [h, Nat.zero_add]
  | succ a ih =>
    rw [Nat.add_right_comm]
    cases hl : tasks[t].cfg.link with
    | none => rw [followLinks_none tasks hl] at h; cases h
    | some u =>
      rw [followLinks_some tasks hl] at h ⊢
      exact ih h

/-- A chain of k links has every shorter chain in it. -/
theorem followLinks_prefix {k : Nat} {t x : Slot} (h : followLinks tasks k t = some x) {j : Nat} (hj : j ≤ k) :
    ∃ y, followLinks tasks j t = some y := by
  induction k generalizing t j with
  | zero => exact ⟨x, by rwa [Nat.le_zero.1 hj]⟩
  | succ k ih =>
    cases j with
    | zero => exact ⟨t, rfl⟩
    | succ j =>
      cases hl : tasks[t].cfg.link with
      | none => rw [followLinks_none tasks hl] at h; cases h
      | some u =>
        rw [followLinks_some tasks hl] at h ⊢
        exact ih h (by omega)

variable {tasks}

/-- In a table without cycles a chain of links from any slot ends within fifteen steps (R4, R19). -/
theorem followLinks_sixteen (ha : LinksAcyclic tasks) (t : Slot) : followLinks tasks 16 t = none := by
  cases h : followLinks tasks 16 t with
  | none => rfl
  | some x =>
    exfalso
    have hp : ∀ j, j ≤ 16 → ∃ y, followLinks tasks j t = some y := fun j hj => followLinks_prefix tasks h hj
    choose f hf using hp
    obtain ⟨i, j, hij, e⟩ := Fintype.exists_ne_map_eq_of_card_lt (fun i : Fin 17 => f i.val (by omega)) (by simp)
    wlog hlt : i < j generalizing i j
    · exact this j i hij.symm e.symm (by omega)
    have h1 := hf i.val (by omega)
    have h2 := hf j.val (by omega)
    have h3 := followLinks_add tasks (j.val - i.val) h1
    rw [show i.val + (j.val - i.val) = j.val by omega, h2, ← e] at h3
    exact ha _ (j.val - i.val - 1) (by rw [show j.val - i.val - 1 + 1 = j.val - i.val by omega]; exact h3.symm)

/-- The walk of the link check comes to slot n within k links, or has not ended after them. -/
theorem walkReaches_iff (n : Slot) (k : Nat) (t : Slot) :
    walkReaches tasks n k t = true ↔
      (∃ j, j < k ∧ followLinks tasks (j + 1) t = some n) ∨ ∃ x, followLinks tasks k t = some x := by
  induction k generalizing t with
  | zero => simp [walkReaches, followLinks]
  | succ k ih =>
    unfold walkReaches
    cases h : tasks[t].cfg.link with
    | none => simp [followLinks_none tasks h]
    | some u =>
      simp only [Bool.or_eq_true, beq_iff_eq, ih, followLinks_some tasks h]
      constructor
      · rintro (rfl | ⟨j, hj, e⟩ | e)
        · exact .inl ⟨0, by omega, rfl⟩
        · exact .inl ⟨j + 1, by omega, e⟩
        · exact .inr e
      · rintro (⟨j, hj, e⟩ | e)
        · cases j with
          | zero => exact .inl (by simpa [followLinks] using e)
          | succ j => exact .inr (.inl ⟨j, by omega, e⟩)
        · exact .inr (.inr e)

end Sys2Proof.Machine
end

