-- ==== Sys2Proof/Laws/Accesses.lean ====
section
/-! SUPPORT. What the change of a bus access leaves alone, the latches it clears, and the byte a read returns. -/

namespace Sys2Proof.Machine

/-! ### The model's own fields and the clock under an access (R151, R164) -/

/-- Two states agree in what the change of a bus access never touches: the hold, CLK, the waiting accesses, the queue of
commands, the data lines, the counter of free values. -/
structure SameBus (s t : State) : Prop where
  held : t.held = s.held
  clk : t.clkRunning = s.clkRunning
  waiting : t.waiting = s.waiting
  pending : t.pending = s.pending
  dataOut : t.dataOut = s.dataOut
  freeCount : t.freeCount = s.freeCount

theorem SameBus.rfl {s : State} : SameBus s s := ⟨Eq.refl _, Eq.refl _, Eq.refl _, Eq.refl _, Eq.refl _, Eq.refl _⟩

theorem SameBus.trans {s t u : State} (h : SameBus s t) (k : SameBus t u) : SameBus s u :=
  ⟨k.held.trans h.held, k.clk.trans h.clk, k.waiting.trans h.waiting, k.pending.trans h.pending,
    k.dataOut.trans h.dataOut, k.freeCount.trans h.freeCount⟩

theorem SameBus.ready {s t : State} (h : SameBus s t) (hs : Ready s) : Ready t :=
  ⟨h.held.trans hs.1, h.clk.trans hs.2⟩

variable (s : State)

theorem sameBus_refuse (c : ResultCode) : SameBus s (refuseCmd c s) := ⟨rfl, rfl, rfl, rfl, rfl, rfl⟩

theorem sameBus_accept {t : State} (h : SameBus s t) : SameBus s (acceptCmd t) :=
  ⟨h.held, h.clk, h.waiting, h.pending, h.dataOut, h.freeCount⟩

theorem sameBus_modRuntime (n : Slot) (f : TaskRuntime → TaskRuntime) : SameBus s (s.modRuntime n f) :=
  ⟨rfl, rfl, rfl, rfl, rfl, rfl⟩

theorem sameBus_makeDue (kind : EntryKind) (n : Slot) : SameBus s (makeDue kind n s) := by
  rw [makeDue_frame]
  exact ⟨rfl, rfl, rfl, rfl, rfl, rfl⟩

theorem sameBus_onSlot {f : Slot → State → State} (h : ∀ n, SameBus s (f n s)) : SameBus s (onSlot f s) := by
  rcases onSlot_cases s f with ⟨_, e⟩ | ⟨n, _, e⟩ <;> rw [e]
  · exact sameBus_refuse s _
  · exact h n

theorem sameBus_commitSlot (n : Slot) : SameBus s (commitSlot n s) := by
  unfold commitSlot
  repeat' split
  all_goals exact ⟨rfl, rfl, rfl, rfl, rfl, rfl⟩

theorem sameBus_startSlot (n : Slot) : SameBus s (startSlot n s) := by
  unfold startSlot armTask
  split
  · refine sameBus_accept s ?_
    dsimp only
    split
    · exact (sameBus_modRuntime s n _).trans (sameBus_makeDue _ _ n)
    · exact sameBus_modRuntime s n _
  · exact sameBus_refuse s _

theorem sameBus_giveUpWork (n : Slot) : SameBus s (giveUpWork n s) := by
  unfold giveUpWork
  split
  · exact ⟨rfl, rfl, rfl, rfl, rfl, rfl⟩
  · unfold abandonConversion
    rw [endHalt_eq]
    exact ⟨rfl, rfl, rfl, rfl, rfl, rfl⟩
  · exact .rfl
  · exact .rfl

theorem sameBus_triggerSlot (n : Slot) : SameBus s (triggerSlot n s) := by
  unfold triggerSlot
  split
  · exact sameBus_refuse s _
  · exact sameBus_accept s (sameBus_makeDue s _ n)

theorem sameBus_haltEffect : SameBus s (haltEffect s) := by
  refine sameBus_accept s ?_
  unfold haltRun
  repeat' split
  all_goals exact ⟨rfl, rfl, rfl, rfl, rfl, rfl⟩

theorem sameBus_registerWrite (a : Addr) (v : Byte) : SameBus s (registerWriteEffect a v s) := by
  unfold registerWriteEffect
  split
  all_goals exact ⟨rfl, rfl, rfl, rfl, rfl, rfl⟩

theorem sameBus_reset (trig : Level) : SameBus s (resetEffect trig s) := by
  unfold resetEffect
  exact ⟨rfl, rfl, rfl, rfl, rfl, rfl⟩

theorem sameBus_setStage (x : Stage) : SameBus s (s.setStage x) := ⟨rfl, rfl, rfl, rfl, rfl, rfl⟩
theorem sameBus_setQueue (q : ResultQueue) : SameBus s (s.setQueue q) := ⟨rfl, rfl, rfl, rfl, rfl, rfl⟩
theorem sameBus_setTaskLatch (l : Word16) : SameBus s (s.setTaskLatch l) := ⟨rfl, rfl, rfl, rfl, rfl, rfl⟩
theorem sameBus_setSysLatch (l : SysLatches) : SameBus s (s.setSysLatch l) := ⟨rfl, rfl, rfl, rfl, rfl, rfl⟩
theorem sameBus_tickl (b : Byte) : SameBus s (ticklEffect b s) := ⟨rfl, rfl, rfl, rfl, rfl, rfl⟩

/-- The change of a bus access, made at once or later, does not touch the hold, CLK, the waiting accesses, the queue of
commands, the data lines or the counter of free values. -/
theorem sameBus_accessEffect (i : Instr) (b : Byte) : SameBus s (accessEffect i b s) := by
  cases i with
  | load => exact sameBus_onSlot s fun _ => ⟨rfl, rfl, rfl, rfl, rfl, rfl⟩
  | commit => exact sameBus_onSlot s (sameBus_commitSlot s)
  | start => exact sameBus_onSlot s (sameBus_startSlot s)
  | stop =>
    exact sameBus_onSlot s fun n =>
      sameBus_accept s ((sameBus_giveUpWork s n).trans (sameBus_modRuntime _ n _))
  | trigger => exact sameBus_onSlot s (sameBus_triggerSlot s)
  | halt => exact sameBus_haltEffect s
  | discard =>
    show SameBus s (discardEffect s)
    unfold discardEffect
    split
    all_goals exact ⟨rfl, rfl, rfl, rfl, rfl, rfl⟩
  | stofsWrite v =>
    show SameBus s (stofsEffect v s)
    unfold stofsEffect
    split
    all_goals exact ⟨rfl, rfl, rfl, rfl, rfl, rfl⟩
  | rqdataRead =>
    show SameBus s (rqdataEffect b s)
    unfold rqdataEffect
    split
    all_goals exact ⟨rfl, rfl, rfl, rfl, rfl, rfl⟩
  | registerWrite a v => exact sameBus_registerWrite s a v
  | resume => exact sameBus_accept s ⟨rfl, rfl, rfl, rfl, rfl, rfl⟩
  | flush => exact sameBus_accept s ⟨rfl, rfl, rfl, rfl, rfl, rfl⟩
  | reset trig => exact sameBus_reset s trig
  | badCmd code => exact sameBus_refuse s .badCmd
  | stdataRead => exact sameBus_setStage s _
  | stdataWrite v => exact sameBus_setStage s _
  | lostcntRead => exact sameBus_setQueue s _
  | taskLatchRead half => exact sameBus_setTaskLatch s _
  | slatRead => exact sameBus_setSysLatch s _
  | ticklRead => exact sameBus_tickl s b
  | _ => exact SameBus.rfl

/-! ### No change of an access reads the data lines -/

variable (x : Option Byte)

theorem modRuntime_setDataOut (n : Slot) (f : TaskRuntime → TaskRuntime) :
    (s.setDataOut x).modRuntime n f = (s.modRuntime n f).setDataOut x := rfl

theorem makeDue_setDataOut (kind : EntryKind) (n : Slot) : makeDue kind n (s.setDataOut x) = (makeDue kind n s).setDataOut x := by
  unfold makeDue
  rw [show (s.setDataOut x).task n = s.task n from rfl]
  split <;> rfl

theorem onSlot_setDataOut {f : Slot → State → State} (h : ∀ n, f n (s.setDataOut x) = (f n s).setDataOut x) :
    onSlot f (s.setDataOut x) = (onSlot f s).setDataOut x := by
  unfold onSlot
  rw [show slotArg (s.setDataOut x) = slotArg s from rfl]
  split
  · rfl
  · exact h _

theorem commitSlot_setDataOut (n : Slot) : commitSlot n (s.setDataOut x) = (commitSlot n s).setDataOut x := by
  unfold commitSlot
  rw [show (s.setDataOut x).stage = s.stage from rfl, show (s.setDataOut x).task n = s.task n from rfl,
    show (s.setDataOut x).tasks = s.tasks from rfl]
  repeat' split
  all_goals rfl

theorem startSlot_setDataOut (n : Slot) : startSlot n (s.setDataOut x) = (startSlot n s).setDataOut x := by
  unfold startSlot armTask
  rw [show (s.setDataOut x).task n = s.task n from rfl]
  split
  · dsimp only
    split
    · rw [modRuntime_setDataOut, makeDue_setDataOut]
      rfl
    · rfl
  · rfl

theorem giveUpWork_setDataOut (n : Slot) : giveUpWork n (s.setDataOut x) = (giveUpWork n s).setDataOut x := by
  unfold giveUpWork abandonConversion endHalt
  rw [show (s.setDataOut x).task n = s.task n from rfl]
  split
  · rfl
  · rw [show (setAbort ((s.setDataOut x).setConv none)).runState = s.runState from rfl,
      show (setAbort (s.setConv none)).runState = s.runState from rfl]
    split <;> rfl
  · rfl
  · rfl

/-- The change of a bus access is the same whatever the data lines hold. -/
theorem accessEffect_setDataOut (i : Instr) (b : Byte) :
    accessEffect i b (s.setDataOut x) = (accessEffect i b s).setDataOut x := by
  cases i with
  | load => exact onSlot_setDataOut s x fun _ => rfl
  | commit => exact onSlot_setDataOut s x (commitSlot_setDataOut s x)
  | start => exact onSlot_setDataOut s x (startSlot_setDataOut s x)
  | stop =>
    refine onSlot_setDataOut s x fun n => ?_
    unfold stopSlot
    rw [giveUpWork_setDataOut]
    rfl
  | trigger =>
    refine onSlot_setDataOut s x fun n => ?_
    unfold triggerSlot
    rw [show (s.setDataOut x).task n = s.task n from rfl, makeDue_setDataOut]
    split <;> rfl
  | halt =>
    show haltEffect _ = (haltEffect s).setDataOut x
    unfold haltEffect haltRun
    rw [show (s.setDataOut x).runState = s.runState from rfl, show (s.setDataOut x).conv = s.conv from rfl]
    repeat' split
    all_goals rfl
  | stofsWrite v =>
    show stofsEffect v _ = (stofsEffect v s).setDataOut x
    unfold stofsEffect
    split <;> rfl
  | discard =>
    show discardEffect _ = (discardEffect s).setDataOut x
    unfold discardEffect
    rw [show (s.setDataOut x).rq = s.rq from rfl]
    split <;> rfl
  | rqdataRead =>
    show rqdataEffect b _ = (rqdataEffect b s).setDataOut x
    unfold rqdataEffect
    rw [show (s.setDataOut x).rq = s.rq from rfl]
    split <;> rfl
  | registerWrite a v =>
    show registerWriteEffect a v _ = (registerWriteEffect a v s).setDataOut x
    unfold registerWriteEffect
    split <;> rfl
  | _ => rfl
/-! ### Clearing reads (R144) -/

/-- Clearing the system latches with the byte a read of SLAT returned clears them all. -/
theorem SysLatches.clear_returned (l : SysLatches) (x : Bool) : l.clear (BitVec.ofBool x ++ l.bits) = noSysLatches := by
  obtain ⟨a, b, c, d, e, f, g⟩ := l
  revert a b c d e f g x
  decide

/-- A byte with no latch bit at 1 clears nothing. -/
theorem SysLatches.clear_none (l : SysLatches) (x : Bool) : l.clear (BitVec.ofBool x ++ 0#7) = l := by
  obtain ⟨a, b, c, d, e, f, g⟩ := l
  revert a b c d e f g x
  decide

/-- Bit n of SLAT is system latch n (R139). -/
theorem SysLatches.bits_getLsbD (l : SysLatches) :
    l.bits.getLsbD 0 = l.qready ∧ l.bits.getLsbD 1 = l.qover ∧ l.bits.getLsbD 2 = l.qunder ∧ l.bits.getLsbD 3 = l.miss ∧
    l.bits.getLsbD 4 = l.abort ∧ l.bits.getLsbD 5 = l.halted ∧ l.bits.getLsbD 6 = l.cmderr := by
  obtain ⟨a, b, c, d, e, f, g⟩ := l
  revert a b c d e f g
  decide

end Sys2Proof.Machine
end

