-- ==== Sys2Proof/Laws/Bus.lean ====
section
/-! SUPPORT. The part on its bus: what a read drives on D7 to D0, and what the port does while its strobe lasts (R151); and
that only a reset changes the hold (R161). -/

namespace Sys2Proof.Machine

/-! ### What a read drives (R151, R161) -/

theorem busByte_held {s : State} (h : s.held = true) (a : Addr) : busByte a s = none := by simp [busByte, h]

theorem busByte_taken {s : State} (h : s.held = false) (a : Addr) : busByte a s = some (readRegister a s) := by
  simp [busByte, h]

/-- A read command of the table leaves on D7 to D0 the byte the part drives for its position, and leaves the hold as it
was, whether it is taken, waits or meets a held part. -/
theorem takeRead_drives (c : Instr) (a : Addr) (f : Byte → State → State) (s : State)
    (hf : ∀ b t, SameBus t (f b t)) :
    (takeRead c (readRegister a) f s).dataOut = busByte a s ∧ (takeRead c (readRegister a) f s).held = s.held := by
  unfold takeRead
  split
  · next h => exact ⟨(busByte_held h a).symm, rfl⟩
  · next h =>
    have h' : s.held = false := by simpa using h
    rw [busByte_taken h' a]
    split
    · exact ⟨(hf _ _).dataOut, (hf _ _).held⟩
    · exact ⟨rfl, rfl⟩

/-- Every read completes, leaves on D7 to D0 the byte the part drives for its position, and leaves the hold as it was. -/
theorem takeAccess_read (trig : Level) (a : Addr) (s : State) :
    ∃ t, takeAccess trig (.read a) s = .next t ∧ t.dataOut = busByte a s ∧ t.held = s.held := by
  have key : ∀ i, decodeRead a = some i → ∃ t, exec i s = .next t ∧ t.dataOut = busByte a s ∧ t.held = s.held := by
    intro i hi
    have done : ∀ (j : Instr) (k : Addr) (f : Byte → State → State),
        exec j s = .next (takeRead j (readRegister k) f s) → (∀ b t, f b t = accessEffect j b t) →
        ∃ t, exec j s = .next t ∧ t.dataOut = busByte k s ∧ t.held = s.held := fun j k f e hf =>
      ⟨_, e, takeRead_drives j k f s fun b t => hf b t ▸ sameBus_accessEffect t j b⟩
    unfold decodeRead at hi
    repeat' split at hi
    all_goals first
      | contradiction
      | next ha => cases hi; subst ha; exact done _ _ _ rfl fun _ _ => rfl
  show ∃ t, (match decodeRead a with | some i => exec i s | none => .next (plainRead a s)) = .next t ∧ _
  split
  · next i hi => exact key i hi
  · exact ⟨_, rfl, rfl, rfl⟩

/-! ### The hold in reset (R161) -/

theorem foldl_held {α : Type} (f : State → α → State) (h : ∀ s a, (f s a).held = s.held) (l : List α) (s : State) :
    (l.foldl f s).held = s.held := by
  induction l generalizing s with
  | nil => rfl
  | cons x xs ih => rw [List.foldl_cons, ih, h]

theorem makeDue_held (k : EntryKind) (n : Slot) (s : State) : (makeDue k n s).held = s.held := (sameBus_makeDue s k n).held

theorem takeWrite_keeps_held (c : Instr) (f : State → State) (s : State)
    (hf : ∀ t, (f t).held = t.held) :
    (takeWrite c f s).held = s.held := by
  unfold takeWrite; repeat' split
  all_goals simp [hf]

theorem takeRead_keeps_held (c : Instr) (v : State → Byte) (f : Byte → State → State) (s : State)
    (hf : ∀ b t, (f b t).held = t.held) :
    (takeRead c v f s).held = s.held := by
  unfold takeRead; repeat' split
  all_goals simp [hf]

theorem takeEvent_keeps_held (f : State → State) (s : State)
    (hf : ∀ t, (f t).held = t.held) :
    (takeEvent f s).held = s.held := by
  unfold takeEvent; repeat' split
  all_goals simp [hf]

theorem tickExpiry_held (s : State) : (tickExpiry s).held = s.held := by
  have : ∀ s n, (countdownStep s n).held = s.held := by
    intro s n; unfold countdownStep; dsimp only; split_ifs
    all_goals simp [makeDue_held]
  unfold tickExpiry moveCountdowns; repeat' split
  all_goals simp [foldl_held _ this]

theorem recognisedEdge_held (s : State) : (recognisedEdge s).held = s.held := by
  have : ∀ s n, (edgeStep s n).held = s.held := by
    intro s n; unfold edgeStep; repeat' split
    all_goals simp [makeDue_held]
  unfold recognisedEdge; dsimp only; repeat' split
  all_goals simp [foldl_held _ this]

theorem endHalt_held (s : State) : (endHalt s).held = s.held := by rw [endHalt_eq]

theorem offerRecord_held (b : RecordBody) (s : State) : (offerRecord b s).held = s.held := by
  unfold offerRecord; dsimp only
  repeat' split
  all_goals simp [setQover, setQready]

theorem completeConversion_held (c : BitVec 12) (o : Bool) (s : State) : (completeConversion c o s).held = s.held := by
  unfold completeConversion
  repeat' split
  all_goals try rfl
  all_goals
    unfold deliverResult schedulerPart followLink leaveConverting conversionPart recordPart windowPart
    dsimp only
    repeat' split
    all_goals simp [endHalt_held, makeDue_held, offerRecord_held, setTaskLatchOf]

/-- No command of the table but a low pulse on RES# and VCC_APPLIED changes whether the part is held in reset (R161). -/
theorem exec_held (i : Instr) (s t : State) (h : exec i s = .next t) (h1 : ∀ w l, i ≠ .powerOnReset w l)
    (h2 : i ≠ .vccApplied) :
    t.held = s.held := by
  have acc : ∀ b u, (accessEffect i b u).held = u.held := fun b u => (sameBus_accessEffect u i b).held
  cases i with
  | powerOnReset w l => exact absurd rfl (h1 w l)
  | vccApplied => exact absurd rfl h2
  | clkStop => cases h; rfl
  | clkRunsAgain =>
    cases h
    show (makeWaiting _ _).held = _
    unfold makeWaiting
    rw [foldl_held]
    intro u w; exact (sameBus_accessEffect u _ _).held
  | badCmd c =>
    simp only [exec, execBadCmd] at h; split at h <;> cases h; exact takeWrite_keeps_held _ _ s (acc 0#8)
  | registerWrite a v =>
    simp only [exec, execRegisterWrite] at h; split at h <;> cases h; exact takeWrite_keeps_held _ _ s (acc 0#8)
  | load | commit | start | stop | trigger | halt | resume | flush | discard | reset l | stofsWrite v | stdataWrite v =>
    cases h; exact takeWrite_keeps_held _ _ s (acc 0#8)
  | stdataRead | rqdataRead | lostcntRead | taskLatchRead hf | slatRead | ticklRead =>
    cases h; exact takeRead_keeps_held _ _ _ s acc
  | tick => cases h; exact takeEvent_keeps_held _ s tickExpiry_held
  | countdownExpiry n =>
    cases h; refine takeEvent_keeps_held _ s fun u => ?_
    unfold expiryOf; split <;> simp [tickExpiry_held]
  | trigEdge hd =>
    cases h; refine takeEvent_keeps_held _ s fun u => ?_
    unfold edgeEvent; cases hd <;> dsimp only
    · exact recognisedEdge_held u
    · split <;> simp [recognisedEdge_held]
  | take =>
    cases h; refine takeEvent_keeps_held _ s fun u => ?_
    unfold takeHead; repeat' split
    all_goals simp
  | settlingExpiry =>
    cases h; refine takeEvent_keeps_held _ s fun u => ?_
    unfold endSettling; repeat' split
    all_goals simp
  | coarseConversionEnd v =>
    cases h; refine takeEvent_keeps_held _ s fun u => ?_
    unfold endRanging; repeat' split
    all_goals simp
  | sample c o =>
    cases h; refine takeEvent_keeps_held _ s fun u => ?_
    unfold takeSample; repeat' split
    all_goals simp
  | delivery c o => cases h; exact takeEvent_keeps_held _ s (completeConversion_held c o)

/-! ### The port while a strobe lasts -/

/-- While RD# and CS# stay low with WR# high and no reset, no access is taken. -/
theorem accessesAt_reading {p : BusPort} {x : BusPins} (hp : p.last.readStrobe = true) (hw : p.last.wrLow = false)
    (hx : x.readStrobe = true) : accessesAt p x = [] := by
  simp [accessesAt, takesWrite, takesRead, BusPins.writeStrobe, hp, hw, hx]

/-- A sample at which no access is taken moves the port alone. -/
theorem samplePins_quiet (trig : Level) {x : BusPins} {b : BusSystem} (h : accessesAt b.port x = []) :
    samplePins trig x b = .next { b with port := nextPort b.port x } := by
  have hr : takesRead b.port x = false := by
    by_contra hc
    simp [accessesAt, hc] at h
  simp [samplePins, h, takeAccesses, hr]

/-- A part whose port does not drive leaves D7 to D0 released. -/
theorem BusSystem.lines_released {b : BusSystem} (h : b.port.drives = false) : b.lines = none := by
  simp [BusSystem.lines, h]

end Sys2Proof.Machine
end

