-- ==== Sys2Proof/Laws/PerInstr.lean ====
section
/-! SUPPORT. One lemma per command for the statements made per command. -/

namespace Sys2Proof.Laws

/-- A well-formed command that is a bus write is decoded from that write, under some level of TRIG, and one that is a bus
read from that read (R152, R154 to R156). -/
def DecodesBack.Statement (i : Instr) : Prop :=
  i.wellFormed = true →
    (∀ a v, encodeWrite i = some (a, v) → ∃ trig, decodeWrite trig a v = i) ∧
    (∀ a, encodeRead i = some a → decodeRead a = some i)

/-- A command that is no bus access. -/
theorem DecodesBack.ofNone {i : Instr} (hw : encodeWrite i = none) (hr : encodeRead i = none) : DecodesBack.Statement i :=
  fun _ => ⟨fun a v h => by simp [hw] at h, fun a h => by simp [hr] at h⟩

/-- A command that is a bus write. -/
theorem DecodesBack.ofWrite {i : Instr} {a : Addr} {v : Byte} (trig : Level) (hw : encodeWrite i = some (a, v))
    (hr : encodeRead i = none) (h : decodeWrite trig a v = i) : DecodesBack.Statement i :=
  fun _ => ⟨fun b w e => by
      rw [hw, Option.some.injEq, Prod.mk.injEq] at e
      exact ⟨trig, by rw [← e.1, ← e.2, h]⟩,
    fun b e => by simp [hr] at e⟩

/-- A command that is a bus read. -/
theorem DecodesBack.ofRead {i : Instr} {a : Addr} (hw : encodeWrite i = none) (hr : encodeRead i = some a)
    (h : decodeRead a = some i) : DecodesBack.Statement i :=
  fun _ => ⟨fun b w e => by simp [hw] at e,
    fun b e => by
      rw [hr, Option.some.injEq] at e
      rw [← e, h]⟩

theorem DecodesBack.load : DecodesBack.Statement .load := DecodesBack.ofWrite .low rfl rfl rfl
theorem DecodesBack.commit : DecodesBack.Statement .commit := DecodesBack.ofWrite .low rfl rfl rfl
theorem DecodesBack.start : DecodesBack.Statement .start := DecodesBack.ofWrite .low rfl rfl rfl
theorem DecodesBack.stop : DecodesBack.Statement .stop := DecodesBack.ofWrite .low rfl rfl rfl
theorem DecodesBack.trigger : DecodesBack.Statement .trigger := DecodesBack.ofWrite .low rfl rfl rfl
theorem DecodesBack.halt : DecodesBack.Statement .halt := DecodesBack.ofWrite .low rfl rfl rfl
theorem DecodesBack.resume : DecodesBack.Statement .resume := DecodesBack.ofWrite .low rfl rfl rfl
theorem DecodesBack.flush : DecodesBack.Statement .flush := DecodesBack.ofWrite .low rfl rfl rfl
theorem DecodesBack.discard : DecodesBack.Statement .discard := DecodesBack.ofWrite .low rfl rfl rfl
theorem DecodesBack.reset (trig : Level) : DecodesBack.Statement (.reset trig) := DecodesBack.ofWrite trig rfl rfl rfl
theorem DecodesBack.badCmd (code : Byte) : DecodesBack.Statement (.badCmd code) := by
  intro hw
  refine DecodesBack.ofWrite .low rfl rfl ?_ hw
  simp only [Instr.wellFormed, commandCodes, List.contains_eq_mem, List.mem_cons, List.not_mem_nil, or_false, not_or,
    Bool.not_eq_true', decide_eq_false_iff_not] at hw
  simp [decodeWrite, decodeCode, hw]
theorem DecodesBack.stofsWrite (value : Byte) : DecodesBack.Statement (.stofsWrite value) := DecodesBack.ofWrite .low rfl rfl rfl
theorem DecodesBack.stdataRead : DecodesBack.Statement .stdataRead := DecodesBack.ofRead rfl rfl rfl
theorem DecodesBack.stdataWrite (value : Byte) : DecodesBack.Statement (.stdataWrite value) := DecodesBack.ofWrite .low rfl rfl rfl
theorem DecodesBack.rqdataRead : DecodesBack.Statement .rqdataRead := DecodesBack.ofRead rfl rfl rfl
theorem DecodesBack.lostcntRead : DecodesBack.Statement .lostcntRead := DecodesBack.ofRead rfl rfl rfl
theorem DecodesBack.taskLatchRead (half : LatchHalf) : DecodesBack.Statement (.taskLatchRead half) := by
  cases half <;> exact DecodesBack.ofRead rfl rfl rfl
theorem DecodesBack.slatRead : DecodesBack.Statement .slatRead := DecodesBack.ofRead rfl rfl rfl
theorem DecodesBack.ticklRead : DecodesBack.Statement .ticklRead := DecodesBack.ofRead rfl rfl rfl
theorem DecodesBack.registerWrite (addr : Addr) (value : Byte) : DecodesBack.Statement (.registerWrite addr value) := by
  intro hw
  refine DecodesBack.ofWrite .low rfl rfl ?_ hw
  simp only [Instr.wellFormed, ownedWritePositions, List.contains_eq_mem, List.mem_cons, List.not_mem_nil, or_false, not_or,
    Bool.not_eq_true', decide_eq_false_iff_not] at hw
  simp [decodeWrite, hw]
theorem DecodesBack.powerOnReset (width : ResWidth) (trig : Level) : DecodesBack.Statement (.powerOnReset width trig) := DecodesBack.ofNone rfl rfl
theorem DecodesBack.trigEdge (hold : TrigHold) : DecodesBack.Statement (.trigEdge hold) := DecodesBack.ofNone rfl rfl
theorem DecodesBack.tick : DecodesBack.Statement .tick := DecodesBack.ofNone rfl rfl
theorem DecodesBack.countdownExpiry (slot : Slot) : DecodesBack.Statement (.countdownExpiry slot) := DecodesBack.ofNone rfl rfl
theorem DecodesBack.take : DecodesBack.Statement .take := DecodesBack.ofNone rfl rfl
theorem DecodesBack.settlingExpiry : DecodesBack.Statement .settlingExpiry := DecodesBack.ofNone rfl rfl
theorem DecodesBack.coarseConversionEnd (c : BitVec 6) : DecodesBack.Statement (.coarseConversionEnd c) := DecodesBack.ofNone rfl rfl
theorem DecodesBack.sample (code : BitVec 12) (overscaled : Bool) : DecodesBack.Statement (.sample code overscaled) := DecodesBack.ofNone rfl rfl
theorem DecodesBack.delivery (code : BitVec 12) (overscaled : Bool) : DecodesBack.Statement (.delivery code overscaled) := DecodesBack.ofNone rfl rfl
theorem DecodesBack.clkStop : DecodesBack.Statement .clkStop := DecodesBack.ofNone rfl rfl
theorem DecodesBack.clkRunsAgain : DecodesBack.Statement .clkRunsAgain := DecodesBack.ofNone rfl rfl
theorem DecodesBack.vccApplied : DecodesBack.Statement .vccApplied := DecodesBack.ofNone rfl rfl

end Sys2Proof.Laws
end

