-- ==== Sys2Proof/Laws/Power.lean ====
section
/-! SUPPORT. What a low pulse on RES# can do, by its width (R161). -/

namespace Sys2Proof.Machine

variable (l : Level) (s : State)

theorem resPulse_full : resPulse .full l s = powerOnEffect l s := rfl

theorem resPulse_rejected : resPulse .rejected l s = s := rfl

theorem resPulse_marginal_held (h : s.held = true) : resPulse .marginal l s = s := by
  simp [resPulse, resTaken, drawsFree, h]

/-- A marginal pulse of a part that is not held draws a free value, and is a complete reset exactly when it is taken. -/
theorem resPulse_marginal (h : s.held = false) :
    resPulse .marginal l s =
      if resTaken .marginal s then powerOnEffect l { s with freeCount := s.freeCount + 1 }
      else { s with freeCount := s.freeCount + 1 } := by
  have hd : drawsFree .marginal s = true := by simp [drawsFree, h]
  simp only [resPulse, hd, if_true]

/-- A power-on reset sets every field but CLK, the counter of free values and the queue, whatever the state before. -/
theorem powerOnEffect_eq :
    powerOnEffect l s =
      { State.reset with trigRef := l, clkRunning := s.clkRunning, freeCount := s.freeCount, pending := s.pending } := rfl

end Sys2Proof.Machine
end

