-- ==== Sys2Proof/Machine/Analog.lean ====
section
/-! DEFINITION. The nominal relation between an input and the readings of the converter (R59, R61, R62). The part's
readings are operands of the commands; accuracy is outside the document (log entry 21). -/

namespace Sys2Proof.Machine

/-- The nominal coarse value of an input of num/den of VREF: the whole sixty-fourths it reaches, 63 from 63/64 of VREF
upward, 0 at or below AGND (R59). -/
def nominalCoarse (num : Int) (den : Nat) : BitVec 6 := BitVec.ofNat 6 (min 63 (num.toNat * 64 / den))

/-- A sample of an input of num/den of VREF overscales at gain g: the amplified input is at or above VREF (R62). -/
def nominalOverscale (g : Gain) (num : Int) (den : Nat) : Bool := decide (den ≤ num.toNat * g.factor)

/-- The nominal code of a sample: the whole 2^res-ths of VREF that the amplified input reaches, full scale when it
overscales, 0 at or below AGND (R61, R62). -/
def nominalCode (r : Resolution) (g : Gain) (num : Int) (den : Nat) : BitVec 12 :=
  if nominalOverscale g num den then BitVec.ofNat 12 r.fullScale
  else BitVec.ofNat 12 (num.toNat * g.factor * 2 ^ r.width / den)

end Sys2Proof.Machine
end

