-- ==== Sys2Proof/Tests/Slice0.lean ====
section
/-! SUPPORT. Tests on fixed values, their expected results taken from the spec's tables and worked examples, and a witness
for the hypotheses of every statement that has some. -/

namespace Sys2Proof.Tests

open Sys2Proof Sys2Proof.Machine

/-! ### Small states -/

/-- The state a command leaves. -/
def after (c : Instr) (s : State) : State :=
  match exec c s with
  | .next t => t
  | .fault _ => s
  | .refused _ => s

/-- A ready part whose CARG names slot n. -/
def atSlot (n : Byte) : State := { State.reset with carg := n }

/-- The record of slot n replaced. -/
def withCfg (n : Slot) (f : TaskConfig → TaskConfig) (s : State) : State :=
  s.setTask n { cfg := f (s.task n).cfg, rt := (s.task n).rt }

/-- Slot 3 converting with the given phase and policy, averaging ×2, one sample of code 100 taken while SAMPLING. -/
def converting (ph : ConvPhase) (pol : GainPolicy) : State :=
  let s := (State.reset.setTaskState 3 .converting).setRunState .running
  let s := withCfg 3 (fun c => { c with policy := pol, avg := .x2, link := some 5 }) s
  let c := startConversion 3 (s.task 3)
  let s := s.setConv (some (match ph with
    | .sampling => { c with phase := .sampling, samples := 1, sum := 100 }
    | .settling => c
    | .ranging => { c with phase := .ranging }))
  s.setTaskState 5 .armed

/-- A stored record of slot 2 with stamp 48 and miss count 1. -/
def bodyA : RecordBody where
  slot := 2
  zone := .inside
  evt := false
  overFlag := false
  gain := .x1
  res := .bits12
  code := 2600#12
  stamp := some 48#16
  miss := some 1#8

/-- A record of slot 9 without optional parts. -/
def bodyB : RecordBody := { bodyA with slot := 9, stamp := none, miss := none }

/-- A queue that holds a gap and its record, the gap open. -/
def gapQueue : ResultQueue where
  records := [.gap 255#8 2#8, .result 0#8 bodyA]
  readIndex := some 1
  nextSeq := 1#8
  pendingGap := 1#8
  lostcnt := 3#8
  policy := .overwrite
  watermark := 3#5

/-- The queue of the eviction example of 07_the_result_queue.md: 16 records of 8 bytes, full, OVERWRITE. -/
def fullQueue : ResultQueue where
  records := (List.range 16).map fun i => .result (BitVec.ofNat 8 (10 + i)) bodyA
  readIndex := none
  nextSeq := 26#8
  pendingGap := 0#8
  lostcnt := 0#8
  policy := .overwrite
  watermark := 0#5

/-- A part at work: slot 3 converts and links to slot 5, which waits in the Run Queue; HALTING; a record open. -/
def busy : State :=
  { ((converting .sampling .auto).setTaskState 5 .queued) with
    runQueue := [{ slot := 5, rank := 2 }]
    runState := .halting
    rq := gapQueue
    taskLatch := 0x0201#16
    sysLatch := { noSysLatches with miss := true }
    taskEnable := 0x0200#16
    pending := [.delivery 300#12 false] }

/-! ### Which terms are commands -/

theorem test_wellFormed_refuses_badCmd_of_load : (Instr.badCmd 0x01#8).wellFormed = false := by decide
theorem test_wellFormed_refuses_badCmd_of_reset : (Instr.badCmd 0x5A#8).wellFormed = false := by decide
theorem test_wellFormed_accepts_codes_of_R156 :
    (Instr.badCmd 0x00#8).wellFormed && (Instr.badCmd 0x03#8).wellFormed && (Instr.badCmd 0xFF#8).wellFormed = true := by
  decide
theorem test_wellFormed_refuses_write_at_CMD : (Instr.registerWrite 0x00#5 0x01#8).wellFormed = false := by decide
theorem test_wellFormed_refuses_write_at_STOFS : (Instr.registerWrite 0x05#5 0x00#8).wellFormed = false := by decide
theorem test_wellFormed_refuses_write_at_STDATA : (Instr.registerWrite 0x06#5 0x00#8).wellFormed = false := by decide
theorem test_illFormed_is_refused : exec (.badCmd 0x10#8) State.reset = .refused .illFormed := rfl

/-! ### Accesses and commands (R152, R155, R156) -/

theorem test_decode_start : decodeWrite .low 0x00#5 0x10#8 = .start := by decide
theorem test_decode_reset_with_trig : decodeWrite .high 0x00#5 0x5A#8 = .reset .high := by decide
theorem test_decode_unknown_code : decodeWrite .low 0x00#5 0x0F#8 = .badCmd 0x0F#8 := by decide
theorem test_decode_latch_reads :
    decodeRead 0x0C#5 = some (.taskLatchRead .tlatl) ∧ decodeRead 0x0D#5 = some (.taskLatchRead .tlath) := by decide
theorem test_decode_plain_read : decodeRead 0x15#5 = none := by decide
theorem test_table_word_spells_nothing : decodeTableWord 8 0x10 = none := by decide

/-- R151: a read strobe that ends as both CS# and RD# rise takes one read. -/
theorem test_bus_read_then_write :
    busAccesses idlePort
      [{ csLow := true, rdLow := true, wrLow := false, addr := 0x0E#5, data := 0#8 },
       { csLow := false, rdLow := false, wrLow := false, addr := 0x0E#5, data := 0#8 },
       { csLow := true, rdLow := false, wrLow := true, addr := 0x00#5, data := 0x21#8 },
       { csLow := true, rdLow := false, wrLow := false, addr := 0x00#5, data := 0x21#8 }]
      = [.read 0x0E#5, .write 0x00#5 0x21#8] := by decide

/-! ### Worked values of the spec -/

/-- R6: the default image of slot 3. -/
theorem test_default_image_of_slot_3 : ((imageOf (State.reset.task 3)).toList.take 15) =
    [0x40#8, 0x38#8, 0x00#8, 0x00#8, 0x00#8, 0x64#8, 0x00#8, 0x00#8, 0x00#8, 0x00#8, 0x7F#8, 0xFF#8, 0x00#8, 0x00#8,
     0x00#8] := by decide

/-- R8: the default Stage is the default image of slot 0. -/
theorem test_default_stage_is_slot_0 : State.reset.stage.image = imageOf (State.reset.task 0) := by decide

/-- Section 10.2: the image of task 5 (EXTERNAL, 10-bit, ×2, FIX1, settle 2, link to slot 9). -/
def imageFive : Vector Byte 24 :=
  #v[0x82#8, 0x55#8, 0x04#8, 0x00#8, 0x00#8, 0x64#8, 0x00#8, 0x00#8, 0x0F#8, 0xA0#8, 0x6D#8, 0x60#8, 0x00#8, 0x00#8,
     0x89#8, 0x00#8, 0x00#8, 0x00#8, 0x00#8, 0x00#8, 0x00#8, 0x00#8, 0x00#8, 0x00#8]

theorem test_image_five_decodes : (configOf imageFive).map (fun c =>
      (c.mode, c.priority, c.channel, c.res, c.avg)) = some (.external, 2, 5, .bits10, .x2) := by decide
theorem test_image_five_limits : (configOf imageFive).map (fun c => (c.low.toNat, c.high.toNat, c.settle, c.link)) =
    some (4000, 28000, 2, some 9) := by decide

/-- R17: resolution 11, a gain policy of 101, and a must-be-0 bit are each BAD_FIELD. -/
theorem test_bad_fields :
    configOf (imageFive.set 1 0x5D#8) = none ∧ configOf (imageFive.set 2 0xA4#8) = none ∧
    configOf (imageFive.set 2 0x05#8) = none ∧ configOf (imageFive.set 14 0x99#8) = none := by decide

/-- R17: PERIODIC with period 0 is BAD_FIELD. -/
theorem test_periodic_period_zero :
    configOf ((imageFive.set 0 0x02#8).set 5 0x00#8) = none ∧ (configOf (imageFive.set 5 0x00#8)).isSome = true := by
  decide

/-- R18 at its boundaries: 2·HYST equal to HIGH − LOW passes, one more does not, LOW equal to HIGH passes. -/
theorem test_window_boundaries :
    windowOk { defaultConfig 0 with low := 10, high := 20, hyst := 5 } = true ∧
    windowOk { defaultConfig 0 with low := 11, high := 20, hyst := 5 } = false ∧
    windowOk { defaultConfig 0 with low := 20, high := 20, hyst := 0 } = true ∧
    windowOk { defaultConfig 0 with low := 21, high := 20, hyst := 0 } = false ∧
    windowOk { defaultConfig 0 with low := 0, high := 32767, hyst := 16383 } = true := by decide

/-- The table of the link check example of 01_task_table_and_stage.md: 3 → 5 → 9 → 12. -/
def chainTable : TaskTable :=
  ((State.reset.tasks.set 3 { State.reset.tasks[3] with cfg := { defaultConfig 3 with link := some 5 } }).set 5
    { State.reset.tasks[5] with cfg := { defaultConfig 5 with link := some 9 } }).set 9
    { State.reset.tasks[9] with cfg := { defaultConfig 9 with link := some 12 } }

theorem test_link_check_example :
    linkLoops chainTable 12 (some 3) = true ∧ linkLoops chainTable 12 (some 7) = false ∧
    linkLoops chainTable 9 (some 3) = true ∧ linkLoops chainTable 5 (some 12) = false ∧
    linkLoops chainTable 9 none = false ∧ linkLoops chainTable 7 (some 7) = true := by decide

/-- The Run Queue order example of 02_scheduling_and_the_run_queue.md, up to the edge on TRIG. -/
theorem test_run_queue_example :
    let q1 := placeNormal ⟨6, 2⟩ (placeNormal ⟨1, 1⟩ [])
    let q2 := placeNormal ⟨3, 3⟩ (placeNormal ⟨11, 1⟩ q1)
    let q3 := placeEntry .chained 8 0 q2
    q2 = [⟨3, 3⟩, ⟨6, 2⟩, ⟨1, 1⟩, ⟨11, 1⟩] ∧ q3 = ⟨8, 4⟩ :: q2 ∧
    removeEntry 1 (placeNormal ⟨0, 3⟩ q2) = [⟨3, 3⟩, ⟨0, 3⟩, ⟨6, 2⟩, ⟨11, 1⟩] := by decide

/-- The worked values and the moving input of 04_gain_ranging_and_scaling.md. -/
theorem test_gain_worked_values :
    autoGain 10 .x1 = .x2 ∧ autoGain 10 .x2 = .x2 ∧ autoGain 30 .x4 = .x1 ∧ autoGain 3 .x1 = .x8 ∧
    autoGain 6 .x8 = .x8 ∧ autoGain 9 .x8 = .x4 ∧ autoGain 20 .x4 = .x2 ∧ autoGain 29 .x2 = .x1 := by decide

/-- R82: the multiplier table, one entry of each row and column; R83: the largest N of two combinations. -/
theorem test_normalised_values :
    multiplier .bits12 .x1 = 8 ∧ multiplier .bits10 .x2 = 16 ∧ multiplier .bits8 .x4 = 32 ∧ multiplier .bits8 .x8 = 16 ∧
    normalise 1023 .bits10 .x4 = 8184 ∧ normalise 255 .bits8 .x1 = 32640 := by decide

/-- The window of the example of 05_window_monitoring.md. -/
def exampleWindow : TaskConfig :=
  { defaultConfig 3 with low := 1000, high := 20000, hyst := 500, enAbove := true, enBelow := true }

/-- The nine results of that example: zone after, from the zone before. -/
theorem test_zones_of_nine_results :
    evaluateZone exampleWindow .unknown 5000 false = .inside ∧ evaluateZone exampleWindow .inside 20000 false = .inside ∧
    evaluateZone exampleWindow .inside 20008 false = .above ∧ evaluateZone exampleWindow .above 19704 false = .above ∧
    evaluateZone exampleWindow .above 19496 false = .inside ∧ evaluateZone exampleWindow .inside 800 false = .below ∧
    evaluateZone exampleWindow .below 1400 false = .below ∧ evaluateZone exampleWindow .below 1504 false = .inside ∧
    evaluateZone exampleWindow .inside 4095 true = .above := by decide

/-- Which of the nine results fired. -/
theorem test_fired_of_nine_results :
    entryFires exampleWindow .unknown .inside = false ∧ entryFires exampleWindow .inside .above = true ∧
    entryFires exampleWindow .above .inside = false ∧ entryFires exampleWindow .inside .below = true ∧
    entryFires exampleWindow .unknown .above = false := by decide

/-- The record read as an example in section 6.4: 77h, then C2h with code 0A28h, stamp 0030h, miss 01h. -/
theorem test_record_bytes_of_section_6_4 :
    (QRecord.result 5#8 { bodyA with slot := 7, zone := .above }).bytes =
      [0x77#8, 0x05#8, 0xC2#8, 0x0A#8, 0x28#8, 0x00#8, 0x30#8, 0x01#8] := by decide

/-- The GAP record and the records of section 10.7. -/
theorem test_record_bytes_of_section_10_7 :
    (QRecord.gap 58#8 1#8).bytes = [0x80#8, 0x3A#8, 0x01#8] ∧
    (QRecord.result 56#8 { bodyA with slot := 5, res := .bits10, code := 600, stamp := none }).bytes =
      [0x55#8, 0x38#8, 0x81#8, 0x02#8, 0x58#8, 0x01#8] ∧
    (QRecord.result 57#8 { bodyB with zone := .above, evt := true, code := 1600 }).bytes =
      [0x49#8, 0x39#8, 0xE2#8, 0x06#8, 0x40#8] := by decide

/-- The first offer of the eviction example: 5 bytes into a full queue evict one record of 8 bytes. -/
theorem test_eviction_example :
    (insertRecord bodyB fullQueue).rqbytes = 125 ∧ (insertRecord bodyB fullQueue).rqrecs = 16 ∧
    (insertRecord bodyB fullQueue).lostcnt = 1#8 ∧ (insertRecord bodyB fullQueue).nextSeq = 27#8 := by decide

/-- With a record open the same offer is dropped (R119, R121). -/
theorem test_open_record_drops :
    (insertRecord bodyB { fullQueue with readIndex := some 1 }).pendingGap = 1#8 ∧
    (insertRecord bodyB { fullQueue with readIndex := some 1 }).records = fullQueue.records := by decide

/-- R59, R61: 3.4/64 of VREF has coarse value 3 and at ×8 the code 1740; at 8.2/64 it overscales at ×8. -/
theorem test_nominal_readings :
    nominalCoarse 34 640 = 3#6 ∧ nominalCode .bits12 .x8 34 640 = 1740#12 ∧ nominalOverscale .x8 82 640 = true ∧
    nominalCode .bits12 .x8 82 640 = 4095#12 ∧ nominalCoarse 65 64 = 63#6 := by decide

/-! ### One step each -/

/-- DSTAT and the views after reset (R152). -/
theorem test_reset_views :
    readRegister 0x02#5 State.reset = 0x88#8 ∧ readRegister 0x03#5 State.reset = 0xFF#8 ∧
    readRegister 0x06#5 State.reset = 0x40#8 ∧ readRegister 0x17#5 State.reset = 0x00#8 := by decide

theorem test_load_fills_stage : (after .load (atSlot 3#8)).stage.image[1] = 0x38#8 := by decide
theorem test_start_refuses_slot_16 : (after .start (atSlot 16#8)).cmdst = .badSlot := by decide
theorem test_start_arms : ((after .start (atSlot 3#8)).task 3).rt.state = .armed := by decide
theorem test_trigger_refuses_stopped : (after .trigger (atSlot 3#8)).cmdst = .state := by decide
theorem test_stop_sets_abort_and_ends_halt :
    (after .stop { busy with carg := 3#8 }).sysLatch.abort = true ∧
    (after .stop { busy with carg := 3#8 }).runState = .halted := by decide
theorem test_commit_reports_locked :
    (after .commit { (atSlot 3#8).setTaskState 3 .armed with stage := State.reset.stage }).cmdst = .locked := by decide
theorem test_discard_on_empty : (after .discard State.reset).cmdst = .empty := by decide
theorem test_empty_read :
    (after .rqdataRead State.reset).dataOut = some 0xFF#8 ∧
    (after .rqdataRead State.reset).sysLatch.qunder = true := by decide
theorem test_slat_returns_and_keeps_tsum :
    (after .slatRead busy).dataOut = some 0x88#8 ∧ slatByte (after .slatRead busy) = 0x80#8 := by decide
theorem test_tlath_releases_irq :
    irqLow busy = true ∧ irqLow (after (.taskLatchRead .tlath) busy) = false := by decide
theorem test_rqcfg_masks_bits :
    readRegister 0x0A#5 (after (.registerWrite 0x0A#5 0xFF#8) State.reset) = 0x9F#8 := by decide
theorem test_tick_wraps : (after .tick { State.reset with tickCount := 65535#16 }).tickCount = 0#16 := by decide
theorem test_delivery_averages :
    ((after (.delivery 301#12 false) (converting .sampling .fix1)).task 3).rt.lastCode = 200#12 := by decide
theorem test_delivery_enters_link :
    (after (.delivery 300#12 false) (converting .sampling .fix1)).runQueue = [⟨5, 4⟩] := by decide

/-! ### Witnesses: states and operands that meet all hypotheses of a statement together, a clause at a time where a
statement has several -/

theorem test_witness_StepTakesFrontCommand : State.reset.pending = [] := rfl

theorem test_witness_CommandsCompleteExactlyWhenWellFormed :
    Instr.load.wellFormed = true ∧ (Instr.registerWrite 0x05#5 0#8).wellFormed = false := by decide

theorem test_witness_BusDecodeEncodeAgree :
    (Instr.stofsWrite 7#8).wellFormed = true ∧ encodeWrite (.stofsWrite 7#8) = some (0x05#5, 7#8) ∧
    (Instr.reset .high).wellFormed = true ∧ encodeWrite (.reset .high) = some (0x00#5, 0x5A#8) ∧
    encodeRead .rqdataRead = some 0x07#5 := by decide

theorem test_witness_StatusViewsShowState :
    0x17 ≤ (0x17#5 : Addr).toNat ∧ State.reset.conv = none ∧ busy.conv.isSome = true ∧ busy.runQueue.length ≤ 16 ∧
    busy.rq.rqbytes ≤ 128 ∧ fullQueue.rqbytes = 128 ∧ busy.rq.rqrecs ≤ 32 := by decide

theorem test_witness_NarrowPulsesAreWholeOrNothing : State.reset.held = false ∧ Ready State.reset := ⟨rfl, rfl, rfl⟩

theorem test_witness_SoftResetKeepsConfiguration : Ready busy := ⟨rfl, rfl⟩

theorem test_witness_VccHoldsThePartInReset :
    (after .vccApplied busy).held = true ∧ Instr.start.wellFormed = true ∧ (∀ l, Instr.start ≠ .powerOnReset .full l) ∧
    Instr.start ≠ .clkStop ∧ Instr.start ≠ .clkRunsAgain ∧ Instr.start ≠ .vccApplied := by
  refine ⟨rfl, rfl, ?_, ?_, ?_, ?_⟩ <;> simp

theorem test_witness_StoppedClkMakesAccessesWait :
    (after .clkStop busy).held = false ∧ (after .clkStop busy).clkRunning = false ∧ Instr.halt.wellFormed = true ∧
    encodeWrite .halt = some (0x00#5, 0x20#8) ∧ encodeRead .slatRead = some 0x0E#5 := by decide

theorem test_witness_WaitingWritesAreTakenInBusOrder :
    Ready busy ∧ busy.waiting = [] ∧
    ∀ i ∈ [Instr.registerWrite 0x01#5 3#8, .stop], i.wellFormed = true ∧ ∃ a v, encodeWrite i = some (a, v) := by
  refine ⟨⟨rfl, rfl⟩, rfl, ?_⟩
  intro i hi
  simp only [List.mem_cons, List.not_mem_nil, or_false] at hi
  rcases hi with rfl | rfl
  · exact ⟨rfl, _, _, rfl⟩
  · exact ⟨rfl, _, _, rfl⟩

/-- The part at work with CLK stopped and one access waiting. -/
def waitingFor (c : Instr) : State := after c (after .clkStop busy)

theorem test_witness_WaitingLatchReadClearsWhatItReturned :
    State.reset.waiting = [] ∧
    (waitingFor .slatRead).waiting = [{ access := .slatRead, returned := 0x88#8 }] ∧
    (waitingFor (.taskLatchRead .tlatl)).waiting = [{ access := .taskLatchRead .tlatl, returned := 0x01#8 }] ∧
    (waitingFor (.taskLatchRead .tlath)).waiting = [{ access := .taskLatchRead .tlath, returned := 0x02#8 }] ∧
    (waitingFor .stdataRead).held = false ∧
    (waitingFor .stdataRead).waiting = [{ access := .stdataRead, returned := 0x40#8 }] ∧
    (waitingFor .rqdataRead).waiting = [{ access := .rqdataRead, returned := 0xFF#8 }] ∧
    (waitingFor .lostcntRead).waiting = [{ access := .lostcntRead, returned := 0x03#8 }] ∧
    (waitingFor .ticklRead).waiting = [{ access := .ticklRead, returned := 0x00#8 }] ∧
    (waitingFor .halt).waiting = [{ access := .halt, returned := 0x00#8 }] ∧ Instr.halt.wellFormed = true ∧
    encodeWrite .halt = some (0x00#5, 0x20#8) ∧
    (after .rqdataRead (waitingFor .flush)).waiting =
      { access := .flush, returned := 0x00#8 } :: [{ access := .rqdataRead, returned := 0xFF#8 }] := by decide

theorem test_witness_RefusedCommandChangesOnlyStatus :
    Ready (atSlot 3#8) ∧ Instr.trigger.wellFormed = true ∧ encodeWrite .trigger = some (0x00#5, 0x12#8) ∧
    (after .trigger (atSlot 3#8)).cmdst ≠ .ok ∧ (after .start (atSlot 3#8)).cmdst = .ok ∧
    (after .start { atSlot 3#8 with sysLatch := { noSysLatches with cmderr := true } }).sysLatch.cmderr = true :=
  ⟨⟨rfl, rfl⟩, by decide⟩

theorem test_witness_PortRefusesBadSlotsAndCodes :
    Ready (atSlot 16#8) ∧ 16 ≤ (atSlot 16#8).carg.toNat ∧ 16 ≤ (atSlot 255#8).carg.toNat ∧
    (0x5B#8 : Byte) ∉ [0x01#8, 0x02#8, 0x10#8, 0x11#8, 0x12#8, 0x20#8, 0x21#8, 0x30#8, 0x31#8, 0x5A#8] :=
  ⟨⟨rfl, rfl⟩, by decide⟩

theorem test_witness_ConfigurationImageRoundTrip :
    ConfigValid exampleWindow ∧ (configOf imageFive).isSome = true := by
  refine ⟨⟨?_, ?_, ?_⟩, ?_⟩ <;> decide

theorem test_witness_LoadCopiesSlotIntoStage : Ready (atSlot 15#8) ∧ (atSlot 15#8).carg.toNat = (15 : Slot).val :=
  ⟨⟨rfl, rfl⟩, rfl⟩

theorem test_witness_StofsSelectsAndStdataReadsReturn :
    Ready State.reset ∧ (23#8 : Byte).toNat = (23 : Fin 24).val ∧ 24 ≤ (24#8 : Byte).toNat ∧ State.reset.stage.ofs = 0 ∧
    (after (.stofsWrite 23#8) State.reset).stage.ofs = 23 :=
  ⟨⟨rfl, rfl⟩, by decide⟩

theorem test_witness_StdataWritesFillTheImage :
    Ready State.reset ∧ (List.replicate 15 (0xA5#8 : Byte)).length = 15 ∧
    Ready (after (.stofsWrite 15#8) State.reset) ∧ (after (.stofsWrite 15#8) State.reset).stage.ofs.val = 15 ∧
    (after (.stofsWrite 14#8) State.reset).stage.ofs.val = 14 :=
  ⟨⟨rfl, rfl⟩, rfl, ⟨rfl, rfl⟩, by decide⟩

/-- A ready part with the image of section 10.2's task 5 in the Stage and CARG at 5. -/
def committing : State := { atSlot 5#8 with stage := { image := imageFive, ofs := 0 } }

/-- The configuration that image proposes. -/
def fiveConfig : TaskConfig :=
  { defaultConfig 5 with
    mode := .external, priority := 2, res := .bits10, avg := .x2, settle := 2, low := 4000, high := 28000, link := some 9 }

/-- No slot of a table whose only links end after one step reaches itself. -/
theorem acyclic_of_short {tasks : TaskTable} (h1 : ∀ n : Slot, followLinks tasks 1 n ≠ some n)
    (h2 : ∀ n : Slot, followLinks tasks 2 n = none) : LinksAcyclic tasks := by
  intro n k e
  cases k with
  | zero => exact h1 n e
  | succ k =>
    obtain ⟨y, hy⟩ := followLinks_prefix tasks e (show 2 ≤ k + 1 + 1 by omega)
    rw [h2] at hy
    cases hy

theorem acyclic_committing : LinksAcyclic committing.tasks := acyclic_of_short (by decide) (by decide)

theorem test_witness_CommitSlotAndFieldChecks :
    Ready committing ∧ (after .commit committing).cmdst = .ok ∧
    (after .commit { committing with carg := 16#8 }).cmdst = .badSlot ∧
    (after .commit { committing with stage := { image := imageFive.set 14 0x10#8, ofs := 0 } }).cmdst = .badField :=
  ⟨⟨rfl, rfl⟩, by decide⟩

theorem test_witness_CommitWindowCheck :
    Ready committing ∧ committing.carg.toNat < 16 ∧ configOf committing.stage.image = some fiveConfig :=
  ⟨⟨rfl, rfl⟩, by decide⟩

theorem test_witness_CommitLinkCheck :
    Ready committing ∧ committing.carg.toNat = (5 : Slot).val ∧ configOf committing.stage.image = some fiveConfig ∧
    windowOk fiveConfig = true ∧ LinksAcyclic committing.tasks :=
  ⟨⟨rfl, rfl⟩, by decide, by decide, by decide, acyclic_committing⟩

theorem test_witness_CommitLockCheck :
    Ready committing ∧ committing.carg.toNat = (5 : Slot).val ∧ configOf committing.stage.image = some fiveConfig ∧
    windowOk fiveConfig = true ∧ linkLoops committing.tasks 5 fiveConfig.link = false ∧
    lockRefuses (committing.task 5) fiveConfig = false ∧
    (after .commit (committing.setTaskState 5 .armed)).cmdst = .locked :=
  ⟨⟨rfl, rfl⟩, by decide⟩

theorem test_witness_CommitStoresConfiguration :
    Ready committing ∧ committing.carg.toNat = (5 : Slot).val ∧ configOf committing.stage.image = some fiveConfig ∧
    windowOk fiveConfig = true ∧ linkLoops committing.tasks 5 fiveConfig.link = false ∧
    lockRefuses (committing.task 5) fiveConfig = false :=
  ⟨⟨rfl, rfl⟩, by decide⟩

/-- A part at work obeys the laws of the Task Table. -/
theorem busy_table : TableLaws busy := by
  refine ⟨?_, acyclic_of_short (by decide) (by decide)⟩
  unfold ConfigValid
  decide

theorem test_witness_CommitAfterLoadChangesNothing :
    Ready { busy with carg := 3#8 } ∧ ({ busy with carg := 3#8 } : State).carg.toNat < 16 ∧ TableLaws { busy with carg := 3#8 } :=
  ⟨⟨rfl, rfl⟩, by decide, busy_table.valid, busy_table.acyclic⟩

/-- Slot 4 PERIODIC with phase 0 or 1, countdown 1, in the given task state, the part RUNNING. -/
def periodic (st : TaskState) (phase : Word16) : State :=
  let s := withCfg 4 (fun c => { c with mode := .periodic, period := 4#16, phase := phase, priority := 1 })
    ((atSlot 4#8).setRunState .running)
  s.modRuntime 4 fun r => { r with state := st, countdown := 1#16 }

theorem test_witness_StartArmsOrQueues :
    Ready (periodic .stopped 0#16) ∧ (periodic .stopped 0#16).carg.toNat = (4 : Slot).val ∧
    ((periodic .armed 0#16).task 4).rt.state ≠ .stopped ∧ ((periodic .stopped 0#16).task 4).cfg.phase = 0#16 ∧
    ((periodic .stopped 1#16).task 4).rt.state = .stopped ∧
    ¬ (((periodic .stopped 1#16).task 4).cfg.mode = .periodic ∧ ((periodic .stopped 1#16).task 4).cfg.phase = 0#16) :=
  ⟨⟨rfl, rfl⟩, by decide⟩

theorem test_witness_StopEndsTheTask :
    Ready (periodic .armed 1#16) ∧ (periodic .armed 1#16).carg.toNat = (4 : Slot).val ∧
    ((periodic .armed 1#16).task 4).rt.state = .armed ∧ Ready { busy with carg := 5#8 } ∧
    (busy.task 5).rt.state = .queued ∧ (busy.task 3).rt.state = .converting ∧ (busy.task 7).rt.state = .stopped :=
  ⟨⟨rfl, rfl⟩, by decide, by decide, ⟨rfl, rfl⟩, by decide⟩

theorem test_witness_TriggerMakesTheTaskDue :
    Ready (periodic .queued 1#16) ∧ (periodic .queued 1#16).carg.toNat = (4 : Slot).val ∧
    ((periodic .queued 1#16).task 4).rt.state = .queued ∧ ((periodic .armed 1#16).task 4).rt.state = .armed ∧
    ((periodic .stopped 1#16).task 4).rt.state = .stopped ∧ Ready (atSlot 16#8) ∧ 16 ≤ (atSlot 16#8).carg.toNat :=
  ⟨⟨rfl, rfl⟩, by decide, by decide, by decide, by decide, ⟨rfl, rfl⟩, by decide⟩

theorem test_witness_NormalEntryPlacement :
    ([⟨3, 3⟩, ⟨6, 2⟩, ⟨1, 2⟩, ⟨11, 0⟩] : List RunEntry).Pairwise (fun a b => b.rank ≤ a.rank) ∧
    ((periodic .armed 1#16).task 4).rt.state = .armed ∧
    exec .commit committing = .next (after .commit committing) := ⟨by decide, by decide, rfl⟩

theorem test_witness_HaltAndResumeSetTheRunState :
    Ready (periodic .armed 1#16) ∧ (periodic .armed 1#16).runState = .running ∧ (periodic .armed 1#16).conv = none ∧
    (converting .settling .auto).runState = .running ∧ (converting .settling .auto).conv ≠ none ∧
    State.reset.runState ≠ .running :=
  ⟨⟨rfl, rfl⟩, by decide⟩

/-- The same task with two ticks to go. -/
def notDue : State := (periodic .armed 1#16).modRuntime 4 fun r => { r with countdown := 2#16 }

theorem test_witness_TickMovesCountdowns :
    Ready (periodic .armed 1#16) ∧ (periodic .armed 1#16).runState = .running ∧ State.reset.runState ≠ .running ∧
    ((periodic .armed 1#16).task 4).cfg.mode = .periodic ∧ ((periodic .armed 1#16).task 4).rt.countdown = 1#16 ∧
    ((periodic .queued 1#16).task 4).rt.state ≠ .armed ∧ Ready notDue ∧ notDue.runState = .running ∧
    (notDue.task 4).cfg.mode = .periodic ∧ (notDue.task 4).rt.state ≠ .stopped ∧ (notDue.task 4).rt.countdown ≠ 1#16 :=
  ⟨⟨rfl, rfl⟩, by decide, by decide, by decide, by decide, by decide, ⟨rfl, rfl⟩, by decide⟩

theorem test_witness_CountdownExpiryMakesTaskDue :
    Ready (periodic .armed 1#16) ∧ (periodic .armed 1#16).runState = .running ∧
    ((periodic .armed 1#16).task 4).cfg.mode = .periodic ∧ ((periodic .armed 1#16).task 4).rt.countdown = 1#16 ∧
    ((periodic .armed 1#16).task 4).rt.state ≠ .stopped ∧
    ((countdownStep (periodic .armed 1#16) 4).task 4).rt.state = .queued :=
  ⟨⟨rfl, rfl⟩, by decide⟩

/-- Slots 1 and 7 EXTERNAL, slot 1 ARMED and slot 7 QUEUED, TRIG low, TRIGCFG RISE. -/
def external : State :=
  let s := withCfg 7 (fun c => { c with mode := .external }) (withCfg 1 (fun c => { c with mode := .external }) State.reset)
  { ((s.setTaskState 1 .armed).setTaskState 7 .queued) with runQueue := [⟨7, 0⟩], trigCfg := .rise }

theorem test_witness_TrigEdgeReachesExternalTasks :
    Ready external ∧ external.trigCfg = .rise ∧ external.trigRef = .low ∧ State.reset.trigCfg = .off ∧
    (edgeStep external 1).runQueue = [⟨7, 0⟩, ⟨1, 0⟩] ∧ (edgeStep external 7).sysLatch.miss = true :=
  ⟨⟨rfl, rfl⟩, by decide⟩

theorem test_witness_TakeStartsAConversion :
    Ready { external with runState := .running } ∧ external.conv = none ∧ external.runQueue = [⟨7, 0⟩] ∧
    external.runState ≠ .running ∧
    curtask (after .take { external with runState := .running }) = 7#8 :=
  ⟨⟨rfl, rfl⟩, by decide⟩

/-- The conversion of the helper state. -/
def conversionOf (ph : ConvPhase) (pol : GainPolicy) : Conversion :=
  ((converting ph pol).conv).getD (startConversion 3 (State.reset.task 3))

theorem test_witness_SettlingAndRangingEnd :
    Ready (converting .settling .auto) ∧
    (converting .settling .auto).conv = some (conversionOf .settling .auto) ∧
    (conversionOf .settling .auto).phase = .settling ∧
    (converting .ranging .auto).conv = some (conversionOf .ranging .auto) ∧
    (conversionOf .ranging .auto).phase = .ranging :=
  ⟨⟨rfl, rfl⟩, by decide⟩

theorem test_witness_AutoGainStepsByThresholds :
    55 < (7#6 : BitVec 6).toNat * Gain.factor .x8 ∧ (6#6 : BitVec 6).toNat * Gain.factor .x8 ≤ 55 ∧
    Gain.factor .x4 < Gain.factor .x8 ∧ (7#6 : BitVec 6).toNat * Gain.factor .x4 ≤ 55 ∧
    (4#6 : BitVec 6).toNat * Gain.factor .x8 ≤ 39 := by decide

/-- The helper conversion before its first sample. -/
def firstSample : State :=
  (converting .sampling .fix1).setConv (some { conversionOf .sampling .fix1 with samples := 0, sum := 0 })

theorem test_witness_SampleAccumulates :
    Ready firstSample ∧ firstSample.conv = some { conversionOf .sampling .fix1 with samples := 0, sum := 0 } ∧
    (conversionOf .sampling .fix1).phase = .sampling ∧ 0 + 1 < (conversionOf .sampling .fix1).params.avg.count ∧
    (4095#12 : BitVec 12).toNat ≤ 2 ^ (conversionOf .sampling .fix1).params.res.width - 1 :=
  ⟨⟨rfl, rfl⟩, by decide⟩

theorem test_witness_DeliveryStoresResult :
    Ready (converting .sampling .fix1) ∧ (converting .sampling .fix1).conv = some (conversionOf .sampling .fix1) ∧
    (conversionOf .sampling .fix1).phase = .sampling ∧
    (conversionOf .sampling .fix1).samples + 1 = (conversionOf .sampling .fix1).params.avg.count ∧
    (conversionOf .sampling .fix1).sum ≤
      (conversionOf .sampling .fix1).samples * (conversionOf .sampling .fix1).params.res.fullScale ∧
    ((converting .sampling .fix1).task (conversionOf .sampling .fix1).slot).cfg.link ≠
      some (conversionOf .sampling .fix1).slot ∧
    (4095#12 : BitVec 12).toNat ≤ 2 ^ (conversionOf .sampling .fix1).params.res.width - 1 :=
  ⟨⟨rfl, rfl⟩, by decide⟩

theorem test_witness_DeliveryFrame :
    Ready busy ∧ busy.conv = some (conversionOf .sampling .auto) ∧ (conversionOf .sampling .auto).phase = .sampling ∧
    (conversionOf .sampling .auto).samples + 1 = (conversionOf .sampling .auto).params.avg.count ∧
    (busy.task (conversionOf .sampling .auto).slot).cfg.link ≠ some (conversionOf .sampling .auto).slot :=
  ⟨⟨rfl, rfl⟩, by decide⟩

theorem test_witness_DeliveryFollowsLinkAndEndsHalt :
    Ready busy ∧ busy.conv = some (conversionOf .sampling .auto) ∧ (conversionOf .sampling .auto).phase = .sampling ∧
    (conversionOf .sampling .auto).samples + 1 = (conversionOf .sampling .auto).params.avg.count ∧
    (busy.task 3).cfg.link = some 5 ∧ (busy.task 5).rt.state = .queued ∧
    ((converting .sampling .auto).task 5).rt.state = .armed ∧
    (((converting .sampling .auto).setTaskState 5 .stopped).task 5).rt.state = .stopped ∧
    ((withCfg 3 (fun c => { c with link := none }) busy).task 3).cfg.link = none :=
  ⟨⟨rfl, rfl⟩, by decide⟩

theorem test_witness_DeliveryOffersRecord :
    Ready busy ∧ busy.conv = some (conversionOf .sampling .auto) ∧ (conversionOf .sampling .auto).phase = .sampling ∧
    (conversionOf .sampling .auto).samples + 1 = (conversionOf .sampling .auto).params.avg.count ∧
    (busy.task (conversionOf .sampling .auto).slot).cfg.link ≠ some (conversionOf .sampling .auto).slot ∧
    (busy.task 3).cfg.recMode = .always ∧
    ((withCfg 3 (fun c => { c with recMode := .everyN, decim := 1 }) busy).task 3).cfg.recMode = .everyN ∧
    ((busy.task 3).rt.decCount.toNat + 1 = 1) ∧ (after (.delivery 300#12 false) busy).rq.nextSeq = 3#8 ∧
    (after (.delivery 300#12 false) busy).sysLatch.qready = true :=
  ⟨⟨rfl, rfl⟩, by decide⟩

theorem test_witness_ZonesAndEntriesFollowTheTable :
    ConfigValid exampleWindow ∧ 999 < exampleWindow.low.toNat ∧ exampleWindow.high.toNat < 20001 ∧
    exampleWindow.low.toNat ≤ 19500 ∧ 19500 + exampleWindow.hyst.toNat ≤ exampleWindow.high.toNat ∧
    exampleWindow.high.toNat < 19501 + exampleWindow.hyst.toNat ∧ 1499 < exampleWindow.low.toNat + exampleWindow.hyst.toNat ∧
    exampleWindow.low.toNat + exampleWindow.hyst.toNat ≤ 1500 ∧ Zone.above ≠ .unknown := by
  refine ⟨⟨?_, ?_, ?_⟩, ?_⟩ <;> decide

theorem test_witness_NormalisedValueInRange : (4095#12 : BitVec 12).toNat ≤ Resolution.fullScale .bits12 := by decide

theorem test_witness_RecordLayout :
    bodyA.stamp = some 48#16 ∧ bodyA.miss = some 1#8 ∧ bodyB.stamp = none ∧ bodyB.miss = none ∧
    (QRecord.result 0#8 { bodyA with miss := none }).length = 7 ∧
    (QRecord.result 0#8 { bodyA with stamp := none }).length = 6 := by decide

/-- The laws of the Result Queue hold of a queue with a gap, an open record and a number that has wrapped. -/
theorem gapQueue_laws : QueueLaws gapQueue where
  bytes := by decide
  seqs := by refine ⟨?_, ?_, trivial⟩ <;> decide
  paired := ⟨fun _ => ⟨_, _, rfl, rfl⟩, fun h => absurd h (by decide), trivial⟩
  valid := by
    intro r hr
    simp only [gapQueue, List.mem_cons, List.not_mem_nil, or_false] at hr
    rcases hr with rfl | rfl
    · show (2#8 : Byte) ≠ 0#8
      decide
    · exact ⟨by decide, by decide⟩
  opened := by
    intro i hi
    cases hi
    exact ⟨_, _, rfl, by decide, by decide⟩

/-- The laws of the Result Queue hold of the full queue, with no record open and with one open. -/
theorem fullQueue_laws (i : Option Nat) (h : i = none ∨ i = some 1) : QueueLaws { fullQueue with readIndex := i } where
  bytes := by show fullQueue.rqbytes ≤ 128; decide
  seqs := by
    show SeqRun fullQueue.nextSeq fullQueue.records
    refine ⟨?_, ?_, ?_, ?_, ?_, ?_, ?_, ?_, ?_, ?_, ?_, ?_, ?_, ?_, ?_, ?_, trivial⟩ <;> decide
  paired := by
    show GapsPaired fullQueue.records
    refine ⟨?_, ?_, ?_, ?_, ?_, ?_, ?_, ?_, ?_, ?_, ?_, ?_, ?_, ?_, ?_, ?_, trivial⟩ <;> exact fun h => absurd h (by decide)
  valid := by
    intro r hr
    obtain ⟨k, -, rfl⟩ := List.mem_map.mp (show r ∈ fullQueue.records from hr)
    exact ⟨by decide, by decide⟩
  opened := by
    intro j hj
    rcases h with rfl | rfl
    · cases hj
    · cases hj
      exact ⟨_, _, rfl, by decide, by decide⟩

theorem test_witness_InsertionStoresEvictsOrDrops :
    QueueLaws gapQueue ∧ QueueLaws fullQueue ∧ QueueLaws { fullQueue with readIndex := some 1 } ∧
    bodyB.length + 3 ≤ 128 - bytesOf gapQueue.records ∧
    ¬ bodyB.length + 0 ≤ 128 - bytesOf fullQueue.records ∧ fullQueue.policy = .overwrite ∧ fullQueue.readIndex = none :=
  ⟨gapQueue_laws, fullQueue_laws none (.inl rfl), fullQueue_laws (some 1) (.inr rfl), by decide⟩

theorem test_witness_RqdataReadOpensAdvancesRetires :
    Ready State.reset ∧ State.reset.rq.records = [] ∧ State.reset.rq.readIndex = none ∧
    busy.rq.records = [.gap 255#8 2#8, .result 0#8 bodyA] ∧ busy.rq.readIndex = some 1 ∧
    (QRecord.gap 255#8 2#8).bytes[1]? = some 255#8 ∧ 1 + 1 < (QRecord.gap 255#8 2#8).bytes.length ∧
    (QRecord.gap 255#8 2#8).bytes[2]? = some 2#8 ∧ 2 + 1 = (QRecord.gap 255#8 2#8).bytes.length :=
  ⟨⟨rfl, rfl⟩, by decide⟩

/-- A part whose oldest record is a RESULT record of 8 bytes, none open. -/
def oneRecord : State := { State.reset with rq := { defaultQueue with records := [.result 0#8 bodyA], nextSeq := 1#8 } }

theorem test_witness_ReadingARecordReturnsItsBytes :
    Ready oneRecord ∧ oneRecord.rq.records = .result 0#8 bodyA :: [] ∧ oneRecord.rq.readIndex = none ∧
    (QRecord.result 0#8 bodyA).bytes[7]? = some 1#8 :=
  ⟨⟨rfl, rfl⟩, by decide⟩

theorem test_witness_DiscardAndFlushRemoveRecords :
    Ready busy ∧ busy.rq.records = .gap 255#8 2#8 :: [.result 0#8 bodyA] ∧ State.reset.rq.records = [] :=
  ⟨⟨rfl, rfl⟩, rfl, rfl⟩

theorem test_witness_ClearingReadsReturnAndClear : Ready busy ∧ busy.taskLatch ≠ 0#16 := ⟨⟨rfl, rfl⟩, by decide⟩

theorem test_witness_IrqLowExactlyOnEnabledLatch : busy.held = false ∧ irqLow busy = true := by decide

theorem test_witness_TicklReadCapturesHighByte : Ready busy := ⟨rfl, rfl⟩

theorem test_witness_RegisterWriteStoresUsedBits :
    Ready busy ∧ (0x02#5 : Addr).toNat ∉ [0x00, 0x01, 0x05, 0x06, 0x0A, 0x0F, 0x10, 0x11, 0x12, 0x13, 0x16] ∧
    (0x17#5 : Addr).toNat ∉ [0x00, 0x01, 0x05, 0x06, 0x0A, 0x0F, 0x10, 0x11, 0x12, 0x13, 0x16] ∧
    (0xFC#8 : Byte).toNat % 4 = 0 ∧ (0x01#8 : Byte).toNat % 4 = 1 ∧ (0x02#8 : Byte).toNat % 4 = 2 ∧
    (0xFF#8 : Byte).toNat % 4 = 3 :=
  ⟨⟨rfl, rfl⟩, by decide⟩

theorem busy_scheduler : SchedulerLaws busy where
  queued := by decide
  once := by decide
  ranks := by decide
  converting := by decide
  halted := by decide
  halting := by decide

theorem test_witness_StepKeepsSchedulerLaws : SchedulerLaws busy ∧ ∃ t, step busy = .next t ∧ t.conv = none :=
  ⟨busy_scheduler, _, rfl, by decide⟩

theorem test_witness_StepKeepsTableLaws : TableLaws busy ∧ ∃ t, step busy = .next t ∧ t.conv = none :=
  ⟨busy_table, _, rfl, by decide⟩

theorem test_witness_StepKeepsQueueLaws : QueueLaws busy.rq ∧ ∃ t, step busy = .next t ∧ t.conv = none :=
  ⟨gapQueue_laws, _, rfl, by decide⟩

theorem busy_conv {c : Conversion} (h : busy.conv = some c) : c = conversionOf .sampling .auto := by
  have h' : busy.conv = some (conversionOf .sampling .auto) := by decide
  rw [h'] at h
  exact (Option.some.inj h).symm

theorem busy_conversion : ConversionLaws busy where
  params c h := by rw [busy_conv h]; decide
  early c h := by rw [busy_conv h]; decide
  ranging c h := by rw [busy_conv h]; decide
  fixed c h g hg := by
    rw [busy_conv h] at hg
    exact absurd hg (by cases g <;> decide)
  stored c h := by rw [busy_conv h]; decide
  samples c h := by rw [busy_conv h]; decide
  sum c h := by rw [busy_conv h]; decide

theorem busy_runtime : RuntimeLaws busy where
  countdown := by decide
  noDecimation := by decide
  decimation := by decide
  lastN := by decide

theorem test_witness_StepKeepsPartLaws : PartLaws busy ∧ ∃ t, step busy = .next t ∧ t.conv = none :=
  ⟨⟨busy_table, busy_scheduler, busy_conversion, busy_runtime, gapQueue_laws⟩, _, rfl, by decide⟩

theorem test_witness_LockedFieldsKeepWhileRunning :
    Ready busy ∧ busy.waiting = [] ∧ (∃ t, exec (.delivery 300#12 false) busy = .next t ∧ (t.task 3).rt.state ≠ .stopped) ∧
    (busy.task 3).rt.state ≠ .stopped :=
  ⟨⟨rfl, rfl⟩, rfl, ⟨_, rfl, by decide⟩, by decide⟩

/-- RD# held low at a position, other pins as given. -/
def readAt (a : Addr) : BusPins := { csLow := true, rdLow := true, wrLow := false, addr := a, data := 0#8 }

theorem test_witness_BusReadsDriveAndHoldTheByte :
    (∀ x ∈ [BusInput.pins .low (readAt 0x11#5), .command .halt],
      (∃ l e v, x = .pins l { csLow := true, rdLow := true, wrLow := false, addr := e, data := v }) ∨
      (∃ i, x = .command i ∧ i.wellFormed = true ∧ (∀ w l, i ≠ .powerOnReset w l) ∧ i ≠ .vccApplied)) ∧
    decodeRead 0x0B#5 = some .lostcntRead ∧ decodeRead 0x02#5 = none ∧ busy.held = false ∧
    (after .vccApplied busy).held = true ∧ (idlePort.last.csLow = false ∨ idlePort.last.rdLow = false) := by
  refine ⟨?_, by decide⟩
  intro x hx
  simp only [List.mem_cons, List.not_mem_nil, or_false] at hx
  rcases hx with rfl | rfl
  · exact .inl ⟨_, _, _, rfl⟩
  · exact .inr ⟨.halt, rfl, rfl, by simp, by simp⟩

/-- A read of DSTAT drives 74h (HALTING, busy, a record open, a gap pending); a held part drives nothing. -/
theorem test_plain_read_drives :
    (plainRead 0x02#5 busy).dataOut = some 0x74#8 ∧ (plainRead 0x02#5 (after .vccApplied busy)).dataOut = none := by
  decide

end Sys2Proof.Tests
end

section
/-! SUPPORT. Who changes a configuration: COMMIT alone, and the resets that write the default table. Every other command
keeps every configuration, so the laws of the Task Table (L6, L7) and the locked fields (L10) rest on COMMIT's checks. -/

namespace Sys2Proof.Machine

/-! ### Keeping every configuration -/

/-- Two states hold the same configuration in every slot. -/
def SameConfig (s t : State) : Prop := ∀ n : Slot, (t.task n).cfg = (s.task n).cfg

variable {s t : State}

theorem SameConfig.of_tasks (h : t.tasks = s.tasks) : SameConfig s t := fun n => by simp only [State.task, h]

theorem SameConfig.trans {u : State} (h : SameConfig s t) (k : SameConfig t u) : SameConfig s u :=
  fun n => (k n).trans (h n)

theorem SameConfig.accept (h : SameConfig s t) : SameConfig s (acceptCmd t) := h

variable (s)

theorem sameConfig_onSlot {f : Slot → State → State} (h : ∀ n, SameConfig s (f n s)) : SameConfig s (onSlot f s) := by
  rcases onSlot_cases s f with ⟨_, e⟩ | ⟨n, _, e⟩ <;> rw [e]
  · exact .of_tasks rfl
  · exact h n

theorem sameConfig_makeDue (kind : EntryKind) (n : Slot) : SameConfig s (makeDue kind n s) := makeDue_cfg s kind n

theorem sameConfig_modRuntime (n : Slot) (f : TaskRuntime → TaskRuntime) : SameConfig s (s.modRuntime n f) :=
  fun m => State.modRuntime_cfg s n m f

theorem sameConfig_startSlot (n : Slot) : SameConfig s (startSlot n s) := by
  unfold startSlot armTask
  split
  · refine SameConfig.accept ?_
    dsimp only
    split
    · exact (sameConfig_modRuntime s n _).trans (sameConfig_makeDue _ _ n)
    · exact sameConfig_modRuntime s n _
  · exact .of_tasks rfl

theorem giveUpWork_tasks (n : Slot) : (giveUpWork n s).tasks = s.tasks := by
  unfold giveUpWork
  split
  · rfl
  · rw [abandonConversion, endHalt_eq]
    rfl
  · rfl
  · rfl

theorem sameConfig_stopSlot (n : Slot) : SameConfig s (stopSlot n s) :=
  .accept ((SameConfig.of_tasks (giveUpWork_tasks s n)).trans (sameConfig_modRuntime _ n _))

theorem sameConfig_triggerSlot (n : Slot) : SameConfig s (triggerSlot n s) := by
  unfold triggerSlot
  split
  · exact .of_tasks rfl
  · exact .accept (sameConfig_makeDue s _ n)

theorem haltRun_tasks : (haltRun s).tasks = s.tasks := by
  unfold haltRun
  repeat' split
  all_goals rfl

theorem sameConfig_resetEffect (l : Level) : SameConfig s (resetEffect l s) := fun n => by
  simp [State.task, resetEffect, resetRuntimes]

theorem registerWriteEffect_tasks (a : Addr) (v : Byte) : (registerWriteEffect a v s).tasks = s.tasks := by
  unfold registerWriteEffect
  split <;> rfl

/-- The change of any bus access but COMMIT keeps every configuration. -/
theorem sameConfig_accessEffect {i : Instr} (hi : i ≠ .commit) (b : Byte) : SameConfig s (accessEffect i b s) := by
  cases i with
  | commit => exact absurd rfl hi
  | load => exact sameConfig_onSlot s fun _ => .of_tasks rfl
  | start => exact sameConfig_onSlot s (sameConfig_startSlot s)
  | stop => exact sameConfig_onSlot s (sameConfig_stopSlot s)
  | trigger => exact sameConfig_onSlot s (sameConfig_triggerSlot s)
  | halt => exact .of_tasks (haltRun_tasks s)
  | reset l => exact sameConfig_resetEffect s l
  | registerWrite a v => exact .of_tasks (registerWriteEffect_tasks s a v)
  | discard =>
    show SameConfig s (discardEffect s)
    unfold discardEffect
    split <;> exact .of_tasks rfl
  | stofsWrite v =>
    show SameConfig s (stofsEffect v s)
    unfold stofsEffect
    split <;> exact .of_tasks rfl
  | rqdataRead =>
    show SameConfig s (rqdataEffect b s)
    unfold rqdataEffect
    split <;> exact .of_tasks rfl
  | _ => exact .of_tasks rfl

/-! ### Events of the part -/

theorem sameConfig_tickExpiry : SameConfig s (tickExpiry s) := by
  by_cases h : s.runState = .running
  · rw [tickExpiry_running s h]
    exact moveCountdowns_keeps _ (P := SameConfig s)
      (fun t n ht => ht.trans fun m => countdownStep_cfg t n m) (.of_tasks rfl)
  · rw [tickExpiry_halted s h]
    exact .of_tasks rfl

theorem sameConfig_recognisedEdge : SameConfig s (recognisedEdge s) :=
  recognisedEdge_keeps s (P := SameConfig s) (fun t n ht => ht.trans (sameConfig_makeDue t _ n)) (.of_tasks rfl)

theorem sameConfig_edgeEvent (hold : TrigHold) : SameConfig s (edgeEvent hold s) := by
  cases hold with
  | full => exact sameConfig_recognisedEdge s
  | short =>
    unfold edgeEvent
    dsimp only
    split
    · exact SameConfig.trans (t := { s with freeCount := s.freeCount + 1 }) (.of_tasks rfl) (sameConfig_recognisedEdge _)
    · exact .of_tasks rfl

theorem sameConfig_expiryOf (n : Slot) : SameConfig s (expiryOf n s) := by
  unfold expiryOf
  split
  · exact sameConfig_tickExpiry s
  · exact .of_tasks rfl

theorem sameConfig_takeHead : SameConfig s (takeHead s) := by
  unfold takeHead
  split
  · exact fun m => State.setTaskState_cfg s _ m _
  · exact .of_tasks rfl

theorem endSettling_tasks : (endSettling s).tasks = s.tasks := by
  unfold endSettling
  repeat' split
  all_goals rfl

theorem endRanging_tasks (v : BitVec 6) : (endRanging v s).tasks = s.tasks := by
  unfold endRanging
  repeat' split
  all_goals rfl

theorem takeSample_tasks (code : BitVec 12) (o : Bool) : (takeSample code o s).tasks = s.tasks := by
  unfold takeSample
  repeat' split
  all_goals rfl

theorem sameConfig_completeConversion (code : BitVec 12) (o : Bool) : SameConfig s (completeConversion code o s) := by
  unfold completeConversion
  split
  · split
    · rw [deliverResult_eq]
      exact fun m => (schedulerPart_cfg _ _ m).trans (measured_cfg _ s m)
    · exact .of_tasks rfl
  · exact .of_tasks rfl

/-! ### Every command -/

variable {s} in
theorem sameConfig_takeWrite {c : Instr} {f : State → State} (h : ∀ u, SameConfig u (f u)) :
    SameConfig s (takeWrite c f s) := by
  rcases takeWrite_cases s c f with e | ⟨_, e⟩ <;> rw [e]
  · exact h _
  · exact .of_tasks rfl

variable {s} in
theorem sameConfig_takeRead {c : Instr} {v : State → Byte} {f : Byte → State → State}
    (h : ∀ b u, SameConfig u (f b u)) : SameConfig s (takeRead c v f s) := by
  rcases takeRead_cases s c v f with e | ⟨_, _, e⟩ <;> rw [e]
  · exact h _ _
  · exact .of_tasks rfl

variable {s} in
theorem sameConfig_takeEvent {f : State → State} (h : ∀ u, SameConfig u (f u)) : SameConfig s (takeEvent f s) := by
  rcases takeEvent_cases s f with e | e <;> rw [e]
  · exact h s
  · exact .of_tasks rfl

/-- A low pulse on RES# writes the default table or keeps the table. -/
theorem resPulse_tasks (w : ResWidth) (l : Level) :
    (resPulse w l s).tasks = defaultTable ∨ (resPulse w l s).tasks = s.tasks := by
  unfold resPulse
  dsimp only
  split
  · exact .inl rfl
  · split <;> exact .inr rfl

/-- All a command can do to the configurations: keep them all, commit one, write the default table, or make the changes
that waited while CLK was stopped. -/
theorem exec_config_cases {i : Instr} (h : exec i s = .next t) :
    SameConfig s t ∨ t = commitEffect (s.setDataOut none) ∨ t.tasks = defaultTable ∨ t = clkRunsEffect s := by
  have kept (hi : i ≠ .commit) : ∀ b u, SameConfig u (accessEffect i b u) := fun b u => sameConfig_accessEffect u hi b
  cases i with
  | commit =>
    cases h
    rcases takeWrite_cases s .commit commitEffect with e | ⟨_, e⟩ <;> rw [e]
    · exact .inr (.inl rfl)
    · exact .inl (.of_tasks rfl)
  | powerOnReset w l =>
    cases h
    rcases resPulse_tasks s w l with e | e
    · exact .inr (.inr (.inl e))
    · exact .inl (.of_tasks e)
  | vccApplied => cases h; exact .inr (.inr (.inl rfl))
  | clkRunsAgain => cases h; exact .inr (.inr (.inr rfl))
  | clkStop => cases h; exact .inl (.of_tasks rfl)
  | badCmd code =>
    simp only [exec, execBadCmd] at h
    split at h <;> cases h
    exact .inl (sameConfig_takeWrite fun _ => .of_tasks rfl)
  | registerWrite a v =>
    simp only [exec, execRegisterWrite] at h
    split at h <;> cases h
    exact .inl (sameConfig_takeWrite fun u => .of_tasks (registerWriteEffect_tasks u a v))
  | load | start | stop | trigger | halt | resume | flush | discard | reset | stofsWrite | stdataWrite =>
    cases h
    exact .inl (sameConfig_takeWrite (kept nofun 0#8))
  | stdataRead | rqdataRead | lostcntRead | taskLatchRead | slatRead | ticklRead =>
    cases h
    exact .inl (sameConfig_takeRead (kept nofun))
  | trigEdge hold => cases h; exact .inl (sameConfig_takeEvent fun u => sameConfig_edgeEvent u hold)
  | tick => cases h; exact .inl (sameConfig_takeEvent sameConfig_tickExpiry)
  | countdownExpiry n => cases h; exact .inl (sameConfig_takeEvent fun u => sameConfig_expiryOf u n)
  | take => cases h; exact .inl (sameConfig_takeEvent sameConfig_takeHead)
  | settlingExpiry => cases h; exact .inl (sameConfig_takeEvent fun u => .of_tasks (endSettling_tasks u))
  | coarseConversionEnd v => cases h; exact .inl (sameConfig_takeEvent fun u => .of_tasks (endRanging_tasks u v))
  | sample code o => cases h; exact .inl (sameConfig_takeEvent fun u => .of_tasks (takeSample_tasks u code o))
  | delivery code o => cases h; exact .inl (sameConfig_takeEvent fun u => sameConfig_completeConversion u code o)

end Sys2Proof.Machine
end

section
/-! SUPPORT. The Stage image as numbers (R12, R13), and what a decoded image proposes (R17). -/

namespace Sys2Proof.Machine

/-! ### The bytes of the image as numbers (R12, R13) -/

/-- Appending bit fields is adding their numbers at their weights. -/
theorem append_toNat {m n : Nat} (a : BitVec m) (b : BitVec n) : (a ++ b).toNat = 2 ^ n * a.toNat + b.toNat := by
  rw [BitVec.toNat_append, Nat.shiftLeft_eq, Nat.mul_comm, ← Nat.two_pow_add_eq_or_of_lt b.isLt]

theorem hiByte_loByte_toNat (w : Word16) : 256 * (hiByte w).toNat + (loByte w).toNat = w.toNat := by
  rw [hiByte_toNat, loByte_toNat]
  omega

theorem modeByte_toNat (c : TaskConfig) : (modeByte c).toNat =
    64 * c.mode.enc.toNat + 32 * c.single.toNat + 16 * c.stamp.toNat + 4 * c.recMode.enc.toNat + c.priority.val := by
  have hp := c.priority.isLt
  simp only [modeByte, append_toNat, BitVec.toNat_ofBool, BitVec.toNat_ofFin]
  omega

theorem inputByte_toNat (c : TaskConfig) :
    (inputByte c).toNat = 16 * c.channel.val + 4 * c.res.enc.toNat + c.avg.enc.toNat := by
  simp only [inputByte, append_toNat, BitVec.toNat_ofFin]
  omega

theorem frontByte_toNat (c : TaskConfig) : (frontByte c).toNat = 32 * c.policy.enc.toNat + 2 * c.settle.val := by
  simp only [frontByte, append_toNat, BitVec.toNat_ofFin, BitVec.toNat_ofNat]
  omega

theorem eventsByte_toNat (c : TaskConfig) : (eventsByte c).toNat =
    128 * c.firstZone.toNat + 64 * c.enAbove.toNat + 32 * c.enInside.toNat + 16 * c.enBelow.toNat
      + (c.decimation - 1) := by
  simp only [eventsByte, append_toNat, BitVec.toNat_ofBool, BitVec.toNat_ofFin, TaskConfig.decimation]
  omega

theorem linkByte_toNat (c : TaskConfig) : (linkByte c).toNat = c.link.elim 0 fun m => 128 + m.val := by
  unfold linkByte
  cases c.link with
  | none => rfl
  | some m =>
    show (1#1 ++ 0#3 ++ (BitVec.ofFin m : BitVec 4)).toNat = 128 + m.val
    rw [append_toNat]
    rfl

theorem stateByte_toNat (r : TaskRuntime) : (stateByte r).toNat =
    64 * r.state.enc.toNat + 16 * r.zone.enc.toNat + 4 * r.gain.enc.toNat + 2 * r.lastFired.toNat + r.lastOver.toNat := by
  simp only [stateByte, append_toNat, BitVec.toNat_ofBool]
  omega

/-- A field with zero bits ahead of it stands for its own number. -/
theorem zeros_append_toNat {m n : Nat} (v : BitVec n) : (0#m ++ v).toNat = v.toNat := by
  simp

/-- Settles O16: byte by byte from the layout's definition, each enumeration by its cases. -/
theorem stageImageLayout : Obligations.StageImageLayout := by
  intro t
  refine ⟨(modeByte_toNat t.cfg).trans ?_, (inputByte_toNat t.cfg).trans ?_, (frontByte_toNat t.cfg).trans ?_,
    eventsByte_toNat t.cfg, hiByte_loByte_toNat _, hiByte_loByte_toNat _,
    (hiByte_loByte_toNat _).trans (limitWord_toNat _), (hiByte_loByte_toNat _).trans (limitWord_toNat _),
    (hiByte_loByte_toNat _).trans (hystWord_toNat _), (linkByte_toNat t.cfg).trans ?_, (stateByte_toNat t.rt).trans ?_,
    rfl, zeros_append_toNat (m := 4) t.rt.decCount, hiByte_loByte_toNat _,
    (hiByte_loByte_toNat _).trans (limitWord_toNat _),
    (hiByte_loByte_toNat _).trans (zeros_append_toNat (m := 4) t.rt.lastCode)⟩
  · cases t.cfg.mode <;> cases t.cfg.recMode <;> rfl
  · cases t.cfg.res <;> cases t.cfg.avg <;> rfl
  · cases t.cfg.policy <;> rfl
  · cases t.cfg.link <;> rfl
  · cases t.rt.state <;> cases t.rt.zone <;> cases t.rt.gain <;> rfl

/-! ### Bits of a byte as numbers -/

theorem extractLsb'_toNat_div {w : Nat} (b : BitVec w) (i k : Nat) :
    (b.extractLsb' i k).toNat = b.toNat / 2 ^ i % 2 ^ k := by
  rw [BitVec.extractLsb'_toNat, Nat.shiftRight_eq_div_pow]

theorem getLsbD_iff_div {w : Nat} (b : BitVec w) (i : Nat) : b.getLsbD i = true ↔ b.toNat / 2 ^ i % 2 = 1 := by
  rw [BitVec.getLsbD, Nat.testBit_eq_decide_div_mod_eq, decide_eq_true_iff]

theorem getLsbD_toNat {w : Nat} (b : BitVec w) (i : Nat) : (b.getLsbD i).toNat = b.toNat / 2 ^ i % 2 := by
  rw [BitVec.getLsbD, Nat.toNat_testBit]

/-! ### The bytes put together again from the fields read from them -/

theorem ofFin_extract_toNat {w : Nat} (b : BitVec w) (i k : Nat) :
    (BitVec.ofFin (b.extractLsb' i k).toFin).toNat = b.toNat / 2 ^ i % 2 ^ k := extractLsb'_toNat_div b i k

theorem mode_fields_append (b : Byte) :
    b.extractLsb' 6 2 ++ BitVec.ofBool (b.getLsbD 5) ++ BitVec.ofBool (b.getLsbD 4) ++ b.extractLsb' 2 2
      ++ (BitVec.ofFin (b.extractLsb' 0 2).toFin : BitVec 2) = b := by
  apply BitVec.eq_of_toNat_eq
  have := b.isLt
  simp only [append_toNat, extractLsb'_toNat_div, ofFin_extract_toNat, BitVec.toNat_ofBool, getLsbD_toNat]
  omega

theorem input_fields_append (b : Byte) :
    (BitVec.ofFin (b.extractLsb' 4 4).toFin : BitVec 4) ++ b.extractLsb' 2 2 ++ b.extractLsb' 0 2 = b := by
  apply BitVec.eq_of_toNat_eq
  have := b.isLt
  simp only [append_toNat, extractLsb'_toNat_div, ofFin_extract_toNat]
  omega

theorem front_fields_append (b : Byte) (h : b.toNat % 2 ≠ 1) :
    b.extractLsb' 5 3 ++ (BitVec.ofFin (b.extractLsb' 1 4).toFin : BitVec 4) ++ 0#1 = b := by
  apply BitVec.eq_of_toNat_eq
  have := b.isLt
  simp only [append_toNat, extractLsb'_toNat_div, ofFin_extract_toNat, BitVec.toNat_ofNat]
  omega

theorem events_fields_append (b : Byte) :
    BitVec.ofBool (b.getLsbD 7) ++ BitVec.ofBool (b.getLsbD 6) ++ BitVec.ofBool (b.getLsbD 5)
      ++ BitVec.ofBool (b.getLsbD 4) ++ (BitVec.ofFin (b.extractLsb' 0 4).toFin : BitVec 4) = b := by
  apply BitVec.eq_of_toNat_eq
  have := b.isLt
  simp only [append_toNat, ofFin_extract_toNat, BitVec.toNat_ofBool, getLsbD_toNat]
  omega

theorem link_fields_append (b : Byte) (h7 : b.getLsbD 7 = true) (hb : b.toNat / 16 % 8 = 0) :
    1#1 ++ 0#3 ++ (BitVec.ofFin (b.extractLsb' 0 4).toFin : BitVec 4) = b := by
  apply BitVec.eq_of_toNat_eq
  have := b.isLt
  have h128 := getLsbD_toNat b 7
  rw [h7, Bool.toNat_true] at h128
  simp only [append_toNat, ofFin_extract_toNat, BitVec.toNat_ofNat]
  omega

/-- A two-byte limit below 8000h is kept whole by its fifteen bits. -/
theorem limitWord_extract {w : Word16} (h : w.toNat < 2 ^ 15) : limitWord (w.extractLsb' 0 15) = w := by
  apply BitVec.eq_of_toNat_eq
  rw [limitWord_toNat, extractLsb'_toNat_div]
  omega

/-- A two-byte hysteresis below 4000h is kept whole by its fourteen bits. -/
theorem hystWord_extract {w : Word16} (h : w.toNat < 2 ^ 14) : hystWord (w.extractLsb' 0 14) = w := by
  apply BitVec.eq_of_toNat_eq
  rw [hystWord_toNat, extractLsb'_toNat_div]
  omega

theorem extract_limitWord (v : BitVec 15) : (limitWord v).extractLsb' 0 15 = v := by
  apply BitVec.eq_of_toNat_eq
  have := v.isLt
  rw [extractLsb'_toNat_div, limitWord_toNat]
  omega

theorem extract_hystWord (v : BitVec 14) : (hystWord v).extractLsb' 0 14 = v := by
  apply BitVec.eq_of_toNat_eq
  have := v.isLt
  rw [extractLsb'_toNat_div, hystWord_toNat]
  omega

/-! ### The second check of COMMIT (R17) -/

/-- The conditions of R17 on single bits and on the period, as numbers. -/
theorem badBits_iff (img : Vector Byte 24) : badBits img = true ↔
    img[2].toNat % 2 = 1 ∨ 128 ≤ img[8].toNat ∨ 128 ≤ img[10].toNat ∨ 64 ≤ img[12].toNat ∨
    img[14].toNat / 16 % 8 ≠ 0 ∨ (img[0].toNat / 64 = 0 ∧ img[4].toNat = 0 ∧ img[5].toNat = 0) := by
  have top (b : Byte) : b.toNat / 2 ^ 7 % 2 = 1 ↔ 128 ≤ b.toNat := by have := b.isLt; omega
  have topTwo (b : Byte) : 128 ≤ b.toNat ∨ b.toNat / 2 ^ 6 % 2 = 1 ↔ 64 ≤ b.toNat := by have := b.isLt; omega
  have mode (b : Byte) : b.toNat / 2 ^ 6 % 2 ^ 2 = 0 ↔ b.toNat / 64 = 0 := by have := b.isLt; omega
  have period (h l : Byte) : 256 * h.toNat + l.toNat = 0 ↔ h.toNat = 0 ∧ l.toNat = 0 := by omega
  simp only [badBits, Bool.or_eq_true, Bool.and_eq_true, bne_iff_ne, ne_eq, beq_iff_eq, getLsbD_iff_div,
    ← BitVec.toNat_inj, extractLsb'_toNat_div, joinBytes_toNat, BitVec.toNat_ofNat, Nat.zero_mod, or_assoc, top, mode,
    period]
  rw [← topTwo, or_assoc, pow_zero, Nat.div_one]
  rfl

theorem resolutionOf_eq_none (b : BitVec 2) : resolutionOf b = none ↔ b.toNat = 3 := by
  revert b
  decide

theorem gainPolicyOf_eq_none (b : BitVec 3) : gainPolicyOf b = none ↔ 5 ≤ b.toNat := by
  revert b
  decide

/-- An image proposes no configuration exactly when an encoding is invalid or a condition on bits or period holds. -/
theorem configOf_eq_none_iff (img : Vector Byte 24) : configOf img = none ↔
    resolutionOf (img[1].extractLsb' 2 2) = none ∨ gainPolicyOf (img[2].extractLsb' 5 3) = none ∨
    badBits img = true := by
  unfold configOf
  cases resolutionOf (img[1].extractLsb' 2 2) <;> cases gainPolicyOf (img[2].extractLsb' 5 3) <;> simp

/-! ### The configuration an image proposes (R12, R17) -/

/-- Bytes 0 to 14 of an image are those of configuration c, the target bits of an absent link aside, and no must-be-0 bit
or period is at fault. -/
structure Proposes (img : Vector Byte 24) (c : TaskConfig) : Prop where
  bits : badBits img = false
  mode : modeByte c = img[0]
  input : inputByte c = img[1]
  front : frontByte c = img[2]
  events : eventsByte c = img[3]
  period : c.period = joinBytes img[4] img[5]
  phase : c.phase = joinBytes img[6] img[7]
  low : limitWord c.low = joinBytes img[8] img[9]
  high : limitWord c.high = joinBytes img[10] img[11]
  hyst : hystWord c.hyst = joinBytes img[12] img[13]
  link : c.link = linkOf img[14]

theorem proposes_of_configOf {img : Vector Byte 24} {c : TaskConfig} (h : configOf img = some c) : Proposes img c := by
  unfold configOf at h
  split at h
  · next res policy hr hg =>
    split at h
    · cases h
    · next hb =>
      have hn := mt (badBits_iff img).2 hb
      simp only [not_or] at hn
      obtain ⟨hfront, hlow, hhigh, hhyst, _⟩ := hn
      have h9 := img[9].isLt
      have h11 := img[11].isLt
      have h13 := img[13].isLt
      cases h
      exact {
        bits := by simpa using hb
        mode := by
          simp only [modeByte, enc_startModeOf, enc_recordModeOf]
          exact mode_fields_append _
        input := by
          simp only [inputByte, enc_of_resolutionOf hr, enc_averagingOf]
          exact input_fields_append _
        front := by
          simp only [frontByte, enc_of_gainPolicyOf hg]
          exact front_fields_append _ hfront
        events := events_fields_append _
        period := rfl
        phase := rfl
        low := limitWord_extract (by rw [joinBytes_toNat]; omega)
        high := limitWord_extract (by rw [joinBytes_toNat]; omega)
        hyst := hystWord_extract (by rw [joinBytes_toNat]; omega)
        link := rfl }
  · cases h

theorem configOf_of_proposes {img : Vector Byte 24} {c : TaskConfig} (h : Proposes img c) : configOf img = some c := by
  obtain ⟨hmode, hsingle, hstamp, hrec, hprio, _⟩ := modeByte_fields c
  obtain ⟨hchan, hres, havg⟩ := inputByte_fields c
  obtain ⟨hpol, hsettle, _⟩ := frontByte_fields c
  obtain ⟨hfz, hea, hei, heb, hdec⟩ := eventsByte_fields c
  simp only [configOf, h.bits, ← h.mode, ← h.input, ← h.front, ← h.events, ← h.period, ← h.phase, ← h.low, ← h.high,
    ← h.hyst, ← h.link, extract_limitWord, extract_hystWord, hmode, hsingle, hstamp, hrec, hprio, hchan, hres, havg, hpol,
    hsettle, hfz, hea, hei, heb, hdec]
  rfl

/-- No LINK byte that the part writes has a bit between the target and bit 7. -/
theorem linkByte_unused (c : TaskConfig) : (linkByte c).toNat / 16 % 8 = 0 := by
  rw [linkByte_toNat]
  cases c.link with
  | none => rfl
  | some m =>
    have := m.isLt
    simp only [Option.elim]
    omega

/-- MODE bits 7-6 are 0 for a PERIODIC task only. -/
theorem modeByte_periodic (c : TaskConfig) (h : (modeByte c).toNat / 64 = 0) : c.mode = .periodic := by
  rw [modeByte_toNat] at h
  have h0 : c.mode.enc = 0#2 := BitVec.eq_of_toNat_eq (by simp only [BitVec.toNat_ofNat]; omega)
  rw [← startModeOf_enc c.mode, h0]
  rfl

/-- The image of a record whose PERIODIC period is not 0 proposes the record's configuration (R12, R17). -/
theorem proposes_imageOf (t : Task) (h : t.cfg.mode = .periodic → t.cfg.period ≠ 0#16) : Proposes (imageOf t) t.cfg where
  bits := by
    have hlow := t.cfg.low.isLt
    have hhigh := t.cfg.high.isLt
    have hhyst := t.cfg.hyst.isLt
    rw [Bool.eq_false_iff, ne_eq, badBits_iff]
    show ¬ ((frontByte t.cfg).toNat % 2 = 1 ∨ 128 ≤ (hiByte (limitWord t.cfg.low)).toNat ∨
      128 ≤ (hiByte (limitWord t.cfg.high)).toNat ∨ 64 ≤ (hiByte (hystWord t.cfg.hyst)).toNat ∨
      (linkByte t.cfg).toNat / 16 % 8 ≠ 0 ∨
      ((modeByte t.cfg).toNat / 64 = 0 ∧ (hiByte t.cfg.period).toNat = 0 ∧ (loByte t.cfg.period).toNat = 0))
    simp only [frontByte_toNat, hiByte_toNat, loByte_toNat, limitWord_toNat, hystWord_toNat]
    rintro (hf | hl | hh | hy | hk | ⟨hm, hp, hq⟩)
    · omega
    · omega
    · omega
    · omega
    · exact hk (linkByte_unused t.cfg)
    · exact h (modeByte_periodic t.cfg hm) (BitVec.eq_of_toNat_eq (by simp only [BitVec.toNat_ofNat]; omega))
  mode := rfl
  input := rfl
  front := rfl
  events := rfl
  period := (joinBytes_hi_lo _).symm
  phase := (joinBytes_hi_lo _).symm
  low := (joinBytes_hi_lo _).symm
  high := (joinBytes_hi_lo _).symm
  hyst := (joinBytes_hi_lo _).symm
  link := (linkByte_fields t.cfg).1.symm

theorem configOf_imageOf {t : Task} (h : ConfigValid t.cfg) : configOf (imageOf t) = some t.cfg :=
  configOf_of_proposes (proposes_imageOf t h.1)

/-- The LINK byte of a proposed link: the byte itself with its link present, 00h with the link absent (R12). -/
theorem linkByte_of_linkOf {c : TaskConfig} {b : Byte} (hb : b.toNat / 16 % 8 = 0) (h : c.link = linkOf b) :
    linkByte c = if b.getLsbD 7 then b else 0x00#8 := by
  unfold linkByte
  rw [h, linkOf]
  cases h7 : b.getLsbD 7 with
  | false => rfl
  | true => exact link_fields_append b h7 hb

/-- Bytes 0 to 13 of the image of a proposed configuration are the bytes it was read from. -/
theorem Proposes.image {img : Vector Byte 24} {c : TaskConfig} (h : Proposes img c) (r : TaskRuntime) (k : Fin 24)
    (hk : k.val < 14) : (imageOf { cfg := c, rt := r })[k] = img[k] := by
  obtain ⟨k, hlt⟩ := k
  have hi {w : Word16} {a b : Byte} (e : w = joinBytes a b) : hiByte w = a := e ▸ hiByte_join a b
  have lo {w : Word16} {a b : Byte} (e : w = joinBytes a b) : loByte w = b := e ▸ loByte_join a b
  match k, hlt, hk with
  | 0, _, _ => exact h.mode
  | 1, _, _ => exact h.input
  | 2, _, _ => exact h.front
  | 3, _, _ => exact h.events
  | 4, _, _ => exact hi h.period
  | 5, _, _ => exact lo h.period
  | 6, _, _ => exact hi h.phase
  | 7, _, _ => exact lo h.phase
  | 8, _, _ => exact hi h.low
  | 9, _, _ => exact lo h.low
  | 10, _, _ => exact hi h.high
  | 11, _, _ => exact lo h.high
  | 12, _, _ => exact hi h.hyst
  | 13, _, _ => exact lo h.hyst
  | k + 14, _, hk => exact absurd hk (by simp)

/-- Settles O17: decoding is the relation `Proposes`, which the image of a valid configuration obeys and which gives the
bytes back. -/
theorem configurationImageRoundTrip : Obligations.ConfigurationImageRoundTrip := by
  refine ⟨fun t h => configOf_imageOf h, fun img c r h => ?_⟩
  have hp := proposes_of_configOf h
  have hb := mt (badBits_iff img).2 (Bool.eq_false_iff.1 hp.bits)
  exact ⟨hp.image r, linkByte_of_linkOf (by omega) hp.link⟩

end Sys2Proof.Machine
end

section
/-! SUPPORT. COMMIT check by check (R16 to R21), and why the link check keeps the table free of cycles (R19). -/

namespace Sys2Proof.Machine

/-! ### Links under a COMMIT (R19) -/

/-- Following links reads nothing of a table but its links. -/
theorem followLinks_congr {a b : TaskTable} (h : ∀ n : Slot, a[n].cfg.link = b[n].cfg.link) (k : Nat) (n : Slot) :
    followLinks a k n = followLinks b k n := by
  induction k generalizing n with
  | zero => rfl
  | succ k ih =>
    cases hb : b[n].cfg.link with
    | none => rw [followLinks_none b hb, followLinks_none a ((h n).trans hb)]
    | some u => rw [followLinks_some b hb, followLinks_some a ((h n).trans hb), ih]

variable {tasks : TaskTable} {n : Slot}

/-- In a table without cycles the link check refuses exactly the links whose target is the slot or leads to it by stored
links, any number of them. -/
theorem linkLoops_iff (ha : LinksAcyclic tasks) (link : Option Slot) :
    linkLoops tasks n link = true ↔ ∃ m, link = some m ∧ ∃ k, followLinks tasks k m = some n := by
  cases link with
  | none => simp [linkLoops]
  | some m =>
    simp only [linkLoops, Bool.or_eq_true, beq_iff_eq, walkReaches_iff, followLinks_sixteen ha, reduceCtorEq,
      exists_false, or_false, Option.some.injEq, exists_eq_left']
    constructor
    · rintro (rfl | ⟨j, _, hj⟩)
      · exact ⟨0, rfl⟩
      · exact ⟨j + 1, hj⟩
    · rintro ⟨_ | k, hk⟩
      · exact .inl (Option.some.inj hk)
      · refine .inr ⟨k, ?_, hk⟩
        by_contra hge
        obtain ⟨y, hy⟩ := followLinks_prefix tasks hk (show 16 ≤ k + 1 by omega)
        rw [followLinks_sixteen ha] at hy
        cases hy

variable {tasks' : TaskTable}

/-- Where two tables differ at slot n alone, a chain of links is the same in both or comes to n on its way in both. -/
theorem followLinks_changed (hd : ∀ m : Slot, m ≠ n → tasks'[m].cfg.link = tasks[m].cfg.link) {k : Nat} {t x : Slot}
    (h : followLinks tasks' k t = some x) :
    followLinks tasks k t = some x ∨ ∃ j < k, followLinks tasks j t = some n ∧ followLinks tasks' j t = some n := by
  induction k generalizing t with
  | zero => exact .inl h
  | succ k ih =>
    by_cases ht : t = n
    · exact .inr ⟨0, by omega, congrArg some ht, congrArg some ht⟩
    · cases hl : tasks[t].cfg.link with
      | none => rw [followLinks_none tasks' ((hd t ht).trans hl)] at h; cases h
      | some u =>
        have hl' := (hd t ht).trans hl
        rw [followLinks_some tasks' hl'] at h
        rcases ih h with e | ⟨j, hj, e, e'⟩
        · exact .inl (by rwa [followLinks_some tasks hl])
        · exact .inr ⟨j + 1, by omega, by rwa [followLinks_some tasks hl], by rwa [followLinks_some tasks' hl']⟩

/-- A link that the link check passes closes no cycle: the slot it starts from is on none, and a cycle off that slot would
stand in the table before (R19). -/
theorem linksAcyclic_of_linkLoops (ha : LinksAcyclic tasks) (hc : linkLoops tasks n tasks'[n].cfg.link = false)
    (hd : ∀ m : Slot, m ≠ n → tasks'[m].cfg.link = tasks[m].cfg.link) : LinksAcyclic tasks' := by
  rw [Bool.eq_false_iff, ne_eq, linkLoops_iff ha] at hc
  have hn : ∀ k, followLinks tasks' (k + 1) n ≠ some n := by
    intro k hk
    cases hl : tasks'[n].cfg.link with
    | none => rw [followLinks_none tasks' hl] at hk; cases hk
    | some m =>
      rw [followLinks_some tasks' hl] at hk
      rcases followLinks_changed hd hk with e | ⟨j, _, e, _⟩
      · exact hc ⟨m, hl, k, e⟩
      · exact hc ⟨m, hl, j, e⟩
  intro p k hk
  rcases followLinks_changed hd hk with e | ⟨j, hj, _, hp⟩
  · exact ha p k e
  · have round : followLinks tasks' (k + 1 - j) n = some p := by
      rw [← followLinks_add tasks' _ hp, Nat.add_sub_cancel' hj.le, hk]
    have again := (followLinks_add tasks' j round).trans hp
    exact hn k (by rwa [Nat.sub_add_cancel hj.le] at again)

/-! ### The window check and the lock check (R18, R20) -/

theorem windowOk_iff (c : TaskConfig) :
    windowOk c = true ↔ c.low.toNat ≤ c.high.toNat ∧ 2 * c.hyst.toNat ≤ c.high.toNat - c.low.toNat := by
  rw [windowOk, decide_eq_true_iff]

/-- The window check said without a difference (R18). -/
theorem windowOk_iff_add (c : TaskConfig) : windowOk c = true ↔
    c.low.toNat ≤ c.high.toNat ∧ c.low.toNat + 2 * c.hyst.toNat ≤ c.high.toNat := by
  rw [windowOk_iff]
  omega

theorem lockedEq_refl (c : TaskConfig) : lockedEq c c = true := by simp [lockedEq]

theorem lockRefuses_iff (t : Task) (c : TaskConfig) :
    lockRefuses t c = true ↔ t.rt.state ≠ .stopped ∧ lockedEq c t.cfg ≠ true := by
  simp [lockRefuses]

/-- The limits of a proposed configuration are the two-byte quantities of the image (R12). -/
theorem Proposes.limits {img : Vector Byte 24} {c : TaskConfig} (h : Proposes img c) :
    c.low.toNat = 256 * img[8].toNat + img[9].toNat ∧ c.high.toNat = 256 * img[10].toNat + img[11].toNat ∧
    c.hyst.toNat = 256 * img[12].toNat + img[13].toNat := by
  simp only [← joinBytes_toNat, ← h.low, ← h.high, ← h.hyst, limitWord_toNat, hystWord_toNat, and_self]

/-- A proposed configuration that passes the window check is valid (R4). -/
theorem Proposes.valid {img : Vector Byte 24} {c : TaskConfig} (h : Proposes img c) (hw : windowOk c = true) :
    ConfigValid c := by
  refine ⟨fun hm hp => ?_, (windowOk_iff c).1 hw⟩
  have hb := mt (badBits_iff img).2 (Bool.eq_false_iff.1 h.bits)
  have hmode := modeByte_toNat c
  have hperiod := joinBytes_toNat img[4] img[5]
  have hprio := c.priority.isLt
  have hsingle := c.single.toNat_lt
  have hstamp := c.stamp.toNat_lt
  have hrec := c.recMode.enc.isLt
  rw [← h.period, hp] at hperiod
  rw [h.mode, hm] at hmode
  simp only [StartMode.enc, BitVec.toNat_ofNat] at hmode hperiod
  omega

/-! ### COMMIT check by check (R16) -/

variable {s : State} {c : TaskConfig}

theorem commitSlot_badField (h : configOf s.stage.image = none) : commitSlot n s = refuseCmd .badField s := by
  simp only [commitSlot, h]

theorem commitSlot_proposed (h : configOf s.stage.image = some c) : commitSlot n s =
    if !windowOk c then refuseCmd .badWindow s
    else if linkLoops s.tasks n c.link then refuseCmd .linkLoop s
    else if lockRefuses (s.task n) c then refuseCmd .locked s
    else acceptCmd (s.setTask n (commitTask (s.task n) c)) := by
  simp only [commitSlot, h]

theorem commitSlot_badWindow (h : configOf s.stage.image = some c) (hw : windowOk c = false) :
    commitSlot n s = refuseCmd .badWindow s := by
  simp [commitSlot_proposed h, hw]

/-- With fields and window passed, COMMIT goes on to the link. -/
theorem commitSlot_window (h : configOf s.stage.image = some c) (hw : windowOk c = true) : commitSlot n s =
    if linkLoops s.tasks n c.link then refuseCmd .linkLoop s
    else if lockRefuses (s.task n) c then refuseCmd .locked s
    else acceptCmd (s.setTask n (commitTask (s.task n) c)) := by
  simp [commitSlot_proposed h, hw]

/-- With fields, window and link passed, COMMIT goes on to the lock. -/
theorem commitSlot_link (h : configOf s.stage.image = some c) (hw : windowOk c = true)
    (hl : linkLoops s.tasks n c.link = false) : commitSlot n s =
    if lockRefuses (s.task n) c then refuseCmd .locked s
    else acceptCmd (s.setTask n (commitTask (s.task n) c)) := by
  simp [commitSlot_window h hw, hl]

theorem commitSlot_stored (h : configOf s.stage.image = some c) (hw : windowOk c = true)
    (hl : linkLoops s.tasks n c.link = false) (hk : lockRefuses (s.task n) c = false) :
    commitSlot n s = acceptCmd (s.setTask n (commitTask (s.task n) c)) := by
  simp [commitSlot_link h hw hl, hk]

variable (n s)

/-- All a COMMIT can do after the slot check: store a configuration that passes every check, or refuse, with a code that
is neither BAD_SLOT nor OK. -/
theorem commitSlot_cases :
    (∃ c, configOf s.stage.image = some c ∧ windowOk c = true ∧ linkLoops s.tasks n c.link = false ∧
      lockRefuses (s.task n) c = false ∧ commitSlot n s = acceptCmd (s.setTask n (commitTask (s.task n) c))) ∨
    ∃ code, commitSlot n s = refuseCmd code s ∧ code ≠ .badSlot ∧
      (code = .badField ↔ configOf s.stage.image = none) := by
  cases h : configOf s.stage.image with
  | none => exact .inr ⟨_, commitSlot_badField h, by simp⟩
  | some c =>
    cases hw : windowOk c with
    | false => exact .inr ⟨_, commitSlot_badWindow h hw, by simp⟩
    | true =>
      cases hl : linkLoops s.tasks n c.link with
      | true => exact .inr ⟨.linkLoop, by simp [commitSlot_window h hw, hl], by simp⟩
      | false =>
        cases hk : lockRefuses (s.task n) c with
        | true => exact .inr ⟨.locked, by simp [commitSlot_link h hw hl, hk], by simp⟩
        | false => exact .inl ⟨c, rfl, hw, hl, hk, commitSlot_stored h hw hl hk⟩

end Sys2Proof.Machine
end

section
/-! SUPPORT. The statements about COMMIT (R16 to R21) and about LOAD (R14). -/

namespace Sys2Proof.Machine

variable {s : State} {n : Slot}

theorem exec_commit_slot (hr : Ready s) (hn : s.carg.toNat = n.val) :
    exec .commit s = .next (commitSlot n (s.setDataOut none)) := by
  rw [exec_commit_ready hr]
  exact congrArg _ (onSlot_of_eq (s.setDataOut none) commitSlot hn)

theorem exec_load_slot (hr : Ready s) (hn : s.carg.toNat = n.val) :
    exec .load s = .next (loadSlot n (s.setDataOut none)) := by
  rw [exec_load_ready hr]
  exact congrArg _ (onSlot_of_eq (s.setDataOut none) loadSlot hn)

/-- Settles O18. -/
theorem loadCopiesSlotIntoStage : Obligations.LoadCopiesSlotIntoStage := by
  intro s n hr hn
  rw [exec_load_slot hr hn]
  rfl

/-- A configuration is proposed unless one of the conditions of R17 holds, each written on the Stage bytes. -/
theorem configOf_eq_none_iff_bytes (img : Vector Byte 24) : configOf img = none ↔
    (img[1].toNat / 4 % 4 = 3 ∨ 5 ≤ img[2].toNat / 32 ∨ img[2].toNat % 2 = 1 ∨ 128 ≤ img[8].toNat ∨ 128 ≤ img[10].toNat ∨
       64 ≤ img[12].toNat ∨ img[14].toNat / 16 % 8 ≠ 0 ∨
       (img[0].toNat / 64 = 0 ∧ img[4].toNat = 0 ∧ img[5].toNat = 0)) := by
  have h2 := img[2].isLt
  have hw : img[2].toNat / 2 ^ 5 % 2 ^ 3 = img[2].toNat / 32 := by omega
  rw [configOf_eq_none_iff, resolutionOf_eq_none, gainPolicyOf_eq_none, badBits_iff, extractLsb'_toNat_div,
    extractLsb'_toNat_div, hw]
  rfl

/-- Settles O21: the slot check comes first, then the field check; every later answer has another code. -/
theorem commitSlotAndFieldChecks : Obligations.CommitSlotAndFieldChecks := by
  intro s hr
  refine ⟨_, exec_commit_ready hr, ?_⟩
  dsimp only
  rw [← configOf_eq_none_iff_bytes]
  rcases onSlot_cases (s.setDataOut none) commitSlot with ⟨hge, e⟩ | ⟨n, hn, e⟩
  · rw [State.setDataOut_carg] at hge
    rw [commitEffect, e, refuseCmd_eq]
    simp only [reduceCtorEq, true_iff, false_iff]
    exact ⟨hge, by omega⟩
  · rw [State.setDataOut_carg] at hn
    have hlt : s.carg.toNat < 16 := hn ▸ n.isLt
    rw [commitEffect, e]
    rcases commitSlot_cases n (s.setDataOut none) with ⟨c, hc, _, _, _, es⟩ | ⟨code, es, hcode, hfield⟩ <;> rw [es]
    · rw [State.setDataOut_stage] at hc
      simp [acceptCmd_eq, hc, hlt]
    · rw [State.setDataOut_stage] at hfield
      simp [refuseCmd_eq, hcode, hfield, hlt]

/-- Settles O22: a proposed configuration holds the limits of the Stage bytes, and no later answer is BAD_WINDOW. -/
theorem commitWindowCheck : Obligations.CommitWindowCheck := by
  intro s c hr hlt hc
  refine ⟨_, exec_commit_slot (n := ⟨s.carg.toNat, hlt⟩) hr rfl, ?_⟩
  obtain ⟨hlow, hhigh, hhyst⟩ := (proposes_of_configOf hc).limits
  rw [← hlow, ← hhigh, ← hhyst, ← windowOk_iff_add]
  cases hw : windowOk c with
  | false =>
    rw [commitSlot_badWindow (s := s.setDataOut none) hc hw]
    simp [refuseCmd_eq]
  | true =>
    rw [commitSlot_window (s := s.setDataOut none) hc hw]
    repeat' split
    all_goals simp [refuseCmd_eq, acceptCmd_eq]

/-- Settles O23: in a table without cycles the walk of the check comes to the slot exactly when some chain of links
does. -/
theorem commitLinkCheck : Obligations.CommitLinkCheck := by
  intro s n c hr hn hc hw ha
  refine ⟨_, exec_commit_slot hr hn, ?_⟩
  have reach (m : Slot) : (∃ k, followLinks s.tasks k m = some n) ↔
      m = n ∨ ∃ k, followLinks s.tasks (k + 1) m = some n := by
    rw [← Nat.or_exists_add_one]
    simp [followLinks]
  simp only [← reach]
  rw [← linkLoops_iff ha, commitSlot_window (s := s.setDataOut none) hc hw, State.setDataOut_tasks]
  repeat' split
  all_goals simp_all [refuseCmd_eq, acceptCmd_eq]

/-- Settles O24. -/
theorem commitLockCheck : Obligations.CommitLockCheck := by
  intro s n c hr hn hc hw hl
  refine ⟨_, exec_commit_slot hr hn, ?_⟩
  have hlock := lockRefuses_iff (s.task n) c
  simp only [lockedEq, ne_eq, decide_eq_true_iff] at hlock
  rw [← hlock, commitSlot_link (s := s.setDataOut none) hc hw hl, State.setDataOut_task]
  split <;> simp_all [refuseCmd_eq, acceptCmd_eq]

/-- The two ways of saying that neither the record mode nor decimation N changes: on N (R21) and on N − 1 as stored. -/
theorem commitTask_decCount (t : Task) (c : TaskConfig) : (commitTask t c).rt.decCount =
    if c.recMode ≠ t.cfg.recMode ∨ c.decimation ≠ t.cfg.decimation then 0#4 else t.rt.decCount := by
  have hdec : c.decimation = t.cfg.decimation ↔ c.decim = t.cfg.decim := by
    simp [TaskConfig.decimation, Fin.ext_iff]
  simp only [commitTask, ne_eq, hdec, ← not_and_or, ite_not]

/-- Settles O25. -/
theorem commitStoresConfiguration : Obligations.CommitStoresConfiguration := by
  intro s n c hr hn hc hw hl hk
  refine ⟨_, (exec_commit_slot hr hn).trans (congrArg _ (commitSlot_stored hc hw hl hk)), rfl, fun m hm => ?_, ?_, ?_⟩
  · rw [acceptCmd_task, State.setTask_task_other _ hm, State.setDataOut_task]
  · rw [acceptCmd_task, State.setTask_task_same]
    rfl
  · rw [acceptCmd_task, State.setTask_task_same, ← commitTask_decCount]
    rfl

/-! ### LOAD, then COMMIT -/

/-- Committing the stored configuration again changes nothing of the record. -/
theorem commitTask_self (t : Task) : commitTask t t.cfg = t := by simp [commitTask]

theorem setTask_self (s : State) (n : Slot) : s.setTask n (s.task n) = s := by
  simp [State.setTask, State.task]

/-- Under the laws of the table a slot's own link passes the link check. -/
theorem linkLoops_self {s : State} (h : TableLaws s) (n : Slot) : linkLoops s.tasks n (s.task n).cfg.link = false := by
  rw [Bool.eq_false_iff, ne_eq, linkLoops_iff h.acyclic]
  rintro ⟨m, hm, k, hk⟩
  exact h.acyclic n k ((followLinks_some s.tasks hm k).trans hk)

/-- A COMMIT of a slot's own image passes every check and leaves the table as it is (R14, R21). -/
theorem commitSlot_own_image (h : TableLaws s) (hi : s.stage.image = imageOf (s.task n)) :
    commitSlot n s = acceptCmd s := by
  have hvalid := h.valid n
  have hlock : lockRefuses (s.task n) (s.task n).cfg = false := by simp [lockRefuses, lockedEq_refl]
  rw [commitSlot_stored (hi ▸ configOf_imageOf hvalid) ((windowOk_iff _).2 hvalid.2) (linkLoops_self h n) hlock,
    commitTask_self, setTask_self]

/-- Settles O26: what LOAD leaves in the Stage is the slot's own image. -/
theorem commitAfterLoadChangesNothing : Obligations.CommitAfterLoadChangesNothing := by
  intro s hr hlt htab
  let n : Slot := ⟨s.carg.toNat, hlt⟩
  let u := loadSlot n (s.setDataOut none)
  have hload : exec .load s = .next u := exec_load_slot hr rfl
  have hcommit : exec .commit u = .next (acceptCmd (u.setDataOut none)) :=
    (exec_commit_slot (s := u) (n := n) hr rfl).trans
      (congrArg _ (commitSlot_own_image (s := u.setDataOut none) ⟨htab.valid, htab.acyclic⟩ rfl))
  refine ⟨acceptCmd (u.setDataOut none), ?_, rfl, rfl⟩
  simp only [runCommands, hload, hcommit]

end Sys2Proof.Machine
end

section
/-! SUPPORT. The laws of the Task Table along every step (L6, L7), the locked fields of a task at work (L10), and the
power-on reset (R6, R161). -/

namespace Sys2Proof.Machine

variable {s t : State}

/-! ### The laws of the Task Table -/

/-- The laws of the Task Table speak of configurations alone. -/
theorem TableLaws.of_sameConfig (hs : TableLaws s) (h : SameConfig s t) : TableLaws t where
  valid n := h n ▸ hs.valid n
  acyclic n k := by
    rw [followLinks_congr (b := s.tasks) fun m => congrArg TaskConfig.link (h m)]
    exact hs.acyclic n k

theorem tableLaws_of_default (h : t.tasks = defaultTable) : TableLaws t := by
  have hcfg : ∀ n : Slot, (t.task n).cfg = defaultConfig n := fun n => by simp [State.task, h, defaultTable]
  refine ⟨fun n => ?_, fun n k => ?_⟩
  · rw [hcfg]
    exact ⟨by simp [defaultConfig], by simp [defaultConfig], by simp [defaultConfig]⟩
  · rw [followLinks_none t.tasks (congrArg TaskConfig.link (hcfg n))]
    simp

/-- COMMIT keeps the laws of the table: the field and window checks keep every configuration valid, the link check keeps
the links free of cycles. -/
theorem TableLaws.after_commitSlot (hs : TableLaws s) (n : Slot) : TableLaws (commitSlot n s) := by
  rcases commitSlot_cases n s with ⟨c, hc, hw, hl, _, e⟩ | ⟨code, e, _⟩ <;> rw [e]
  · have hself : ((s.setTask n (commitTask (s.task n) c)).task n).cfg = c := by
      rw [State.setTask_task_same]
      rfl
    refine ⟨fun m => ?_, linksAcyclic_of_linkLoops (n := n) hs.acyclic ?_ fun m hm => ?_⟩
    · by_cases hm : m = n
      · rw [hm, acceptCmd_task, hself]
        exact (proposes_of_configOf hc).valid hw
      · rw [acceptCmd_task, State.setTask_task_other s hm]
        exact hs.valid m
    · exact (congrArg (fun c => linkLoops s.tasks n c.link) hself).trans hl
    · exact congrArg (fun t => t.cfg.link) (State.setTask_task_other s hm _)
  · exact hs.of_sameConfig (.of_tasks rfl)

theorem TableLaws.after_commitEffect (hs : TableLaws s) : TableLaws (commitEffect s) := by
  rcases onSlot_cases s commitSlot with ⟨_, e⟩ | ⟨n, _, e⟩ <;> rw [commitEffect, e]
  · exact hs.of_sameConfig (.of_tasks rfl)
  · exact hs.after_commitSlot n

theorem TableLaws.after_access (hs : TableLaws s) (i : Instr) (b : Byte) : TableLaws (accessEffect i b s) := by
  by_cases hi : i = .commit
  · rw [hi]
    exact hs.after_commitEffect
  · exact hs.of_sameConfig (sameConfig_accessEffect s hi b)

theorem TableLaws.after_waiting (ws : List WaitingAccess) (hs : TableLaws s) : TableLaws (makeWaiting ws s) := by
  induction ws generalizing s with
  | nil => exact hs
  | cons w ws ih => exact ih (hs.after_access w.access w.returned)

theorem TableLaws.after_exec {i : Instr} (hs : TableLaws s) (h : exec i s = .next t) : TableLaws t := by
  rcases exec_config_cases s h with hc | hc | hc | hc
  · exact hs.of_sameConfig hc
  · rw [hc]
    exact (hs.of_sameConfig (t := s.setDataOut none) (.of_tasks rfl)).after_commitEffect
  · exact tableLaws_of_default hc
  · rw [hc]
    exact .after_waiting s.waiting (hs.of_sameConfig (.of_tasks rfl))

/-- Settles O56: COMMIT alone stores a configuration, and its checks are the laws. -/
theorem stepKeepsTableLaws : Obligations.StepKeepsTableLaws := by
  intro s t hs h
  unfold step at h
  split at h
  · cases h
    exact hs
  · next c rest _ =>
    exact TableLaws.after_exec (hs.of_sameConfig (t := { s with pending := rest }) (.of_tasks rfl)) h

/-! ### The locked fields of a task that is not STOPPED (R5, R20, L10) -/

/-- COMMIT keeps the locked fields of every task that is not STOPPED: the lock check refuses any other. -/
theorem commitSlot_locked_kept (m n : Slot) (hs : (s.task n).rt.state ≠ .stopped) :
    lockedEq ((commitSlot m s).task n).cfg (s.task n).cfg = true := by
  rcases commitSlot_cases m s with ⟨c, _, _, _, hk, e⟩ | ⟨code, e, _⟩ <;> rw [e]
  · rw [acceptCmd_task]
    by_cases hn : n = m
    · subst hn
      have hkeep := mt (lockRefuses_iff (s.task n) c).2 (Bool.eq_false_iff.1 hk)
      rw [State.setTask_task_same]
      exact not_not.1 fun hne => hkeep ⟨hs, hne⟩
    · rw [State.setTask_task_other s hn]
      exact lockedEq_refl _
  · exact lockedEq_refl _

/-- Settles O59: a command keeps every configuration, or is a COMMIT that the lock check let pass, or stops every task;
with nothing waiting, CLK running again changes none. -/
theorem lockedFieldsKeepWhileRunning : Obligations.LockedFieldsKeepWhileRunning := by
  intro i s t n _ hw h hs ht
  rcases exec_config_cases s h with hc | hc | hc | hc
  · rw [hc n]
    exact lockedEq_refl _
  · rw [hc]
    rcases onSlot_cases (s.setDataOut none) commitSlot with ⟨_, e⟩ | ⟨m, _, e⟩ <;> rw [commitEffect, e]
    · exact lockedEq_refl _
    · exact commitSlot_locked_kept m n hs
  · exact absurd (by simp [State.task, hc, defaultTable, defaultRuntime]) ht
  · rw [hc, clkRunsEffect, hw]
    exact lockedEq_refl _

/-! ### The power-on reset (R6, R161) -/

theorem exec_powerOnReset_full (s : State) (l : Level) : exec (.powerOnReset .full l) s = .next (powerOnEffect l s) :=
  congrArg Host.Outcome.next (resPulse_full l s)

theorem reset_task (n : Slot) : State.reset.task n = { cfg := defaultConfig n, rt := defaultRuntime } := by
  simp [State.task, State.reset, defaultTable]

theorem powerOnEffect_task (l : Level) (n : Slot) :
    (powerOnEffect l s).task n = { cfg := defaultConfig n, rt := defaultRuntime } := reset_task n

/-- The default image of slot n: the slot stands in the channel field, the rest is the same for every slot (R6). -/
theorem imageOf_default (n : Slot) : (imageOf { cfg := defaultConfig n, rt := defaultRuntime }).toList =
    [0x40#8, BitVec.ofNat 8 (n.val * 16 + 8), 0x00#8, 0x00#8, 0x00#8, 0x64#8, 0x00#8, 0x00#8, 0x00#8, 0x00#8, 0x7F#8,
     0xFF#8, 0x00#8, 0x00#8, 0x00#8, 0x00#8, 0x00#8, 0x00#8, 0x00#8, 0x00#8, 0x00#8, 0x00#8, 0x00#8, 0x00#8] := by
  revert n
  decide

/-- Settles O6. -/
theorem powerOnResetGivesDefaultRecords : Obligations.PowerOnResetGivesDefaultRecords := by
  intro s l
  refine ⟨_, exec_powerOnReset_full s l, fun n => ⟨powerOnEffect_task l n, ?_, ?_⟩⟩
  · rw [powerOnEffect_task, imageOf_default]
  · exact (tableLaws_of_default (t := powerOnEffect l s) rfl).valid n

/-- The Stage at reset is the default image of slot 0 (R8). -/
theorem defaultStage_image : defaultStage.image = imageOf { cfg := defaultConfig 0, rt := defaultRuntime } := by decide

/-- The views at reset: RQCFG and SLAT 0, IRQ# released, DSTAT HALTED with the unit IDLE and the Result Queue empty
(R146, R148, R152, R162). -/
theorem reset_views : readRegister 0x0A#5 State.reset = 0x00#8 ∧ slatByte State.reset = 0x00#8 ∧
    irqLow State.reset = false ∧ dstat State.reset = 0x88#8 := by decide

/-- Settles O7: a power-on reset writes the reset value of every block, whatever the state before. -/
theorem powerOnResetLeavesEveryBlock : Obligations.PowerOnResetLeavesEveryBlock := by
  intro s l
  obtain ⟨hrqcfg, hslat, hirq, hdstat⟩ := reset_views
  refine ⟨_, exec_powerOnReset_full s l, ?_⟩
  rw [powerOnEffect_task, powerOnEffect_eq]
  exact ⟨defaultStage_image, rfl, rfl, rfl, rfl, rfl, rfl, rfl, rfl, rfl, rfl, rfl, rfl, rfl, rfl, rfl, rfl, rfl,
    hrqcfg, rfl, hslat, rfl, rfl, hirq, rfl, rfl, hdstat, rfl, rfl, rfl, rfl, rfl, rfl⟩

/-! ### The laws at reset -/

theorem reset_schedulerLaws : SchedulerLaws State.reset where
  queued n := by
    rw [reset_task]
    constructor
    · rintro ⟨e, he, _⟩
      cases he
    · nofun
  once := .nil
  ranks := .nil
  converting n := by
    rw [reset_task]
    constructor <;> nofun
  halted _ := rfl
  halting h := by cases h

theorem reset_conversionLaws : ConversionLaws State.reset where
  params _ h := by cases h
  early _ h := by cases h
  ranging _ h := by cases h
  fixed _ h := by cases h
  stored _ h := by cases h
  samples _ h := by cases h
  sum _ h := by cases h

theorem reset_runtimeLaws : RuntimeLaws State.reset where
  countdown n h := by simp [reset_task, defaultConfig] at h
  noDecimation n _ := by rw [reset_task]; rfl
  decimation n h := by simp [reset_task, defaultConfig] at h
  lastN n := by simp [reset_task, defaultRuntime]

theorem default_queueLaws : QueueLaws defaultQueue where
  bytes := by decide
  seqs := trivial
  paired := trivial
  valid _ h := by cases h
  opened _ h := by cases h

/-- Settles O54: at reset every task is STOPPED and unlinked, no conversion is in progress and both queues are empty. -/
theorem resetObeysPartLaws : Obligations.ResetObeysPartLaws where
  table := tableLaws_of_default rfl
  scheduler := reset_schedulerLaws
  conversion := reset_conversionLaws
  runtime := reset_runtimeLaws
  queue := default_queueLaws

end Sys2Proof.Machine
end

section
/-! SUPPORT. The Stage's offset port: one access, and lists of accesses one after another (R9 to R11). -/

namespace Sys2Proof.Machine

variable {s : State}

/-! ### One access -/

theorem exec_stdataRead_stage (h : Ready s) : exec .stdataRead s =
    .next { s with stage := s.stage.advance, dataOut := some s.stage.image[s.stage.ofs] } := exec_stdataRead_ready h

/-- The Stage after a write to STDATA: the byte is stored at offsets 0 to 14 and ignored from 15 on, and STOFS
advances (R11). -/
def Stage.write (x : Stage) (v : Byte) : Stage :=
  { x with image := if x.ofs.val < 15 then x.image.set x.ofs v else x.image }.advance

theorem exec_stdataWrite_stage (h : Ready s) (v : Byte) : exec (.stdataWrite v) s =
    .next { s with stage := s.stage.write v, dataOut := none } := exec_stdataWrite_ready h v

theorem Stage.write_get (x : Stage) (v : Byte) (i : Fin 24) :
    (x.write v).image[i] = if i = x.ofs ∧ x.ofs.val < 15 then v else x.image[i] := by
  show (if x.ofs.val < 15 then x.image.set x.ofs v else x.image)[i] = _
  split
  · next h => simp only [stage_read_after_write x.image x.ofs i v, h, and_true]
  · next h => simp only [h, and_false, if_false]

/-! ### Lists of accesses -/

theorem runCommands_cons {c : Instr} {cs : List Instr} {t : State} (h : exec c s = .next t) :
    runCommands (c :: cs) s = runCommands cs t := by
  simp only [runCommands, h]

/-- k + 1 reads of STDATA move STOFS on by k + 1, past 23 to 0, and leave the byte at the last position read on the data
lines. -/
theorem run_stdataReads (h : Ready s) (k : Nat) : runCommands (List.replicate (k + 1) .stdataRead) s =
    .next { s with stage := { image := s.stage.image, ofs := s.stage.ofs + Fin.ofNat 24 (k + 1) },
                   dataOut := some s.stage.image[s.stage.ofs + Fin.ofNat 24 k] } := by
  have ofNat_succ (j : Nat) (o : Fin 24) : o + 1 + Fin.ofNat 24 j = o + Fin.ofNat 24 (j + 1) := by
    rw [Fin.ext_iff]
    simp only [Fin.val_add, Fin.val_ofNat, Fin.val_one]
    omega
  induction k generalizing s with
  | zero =>
    rw [List.replicate_succ, runCommands_cons (exec_stdataRead_stage h)]
    simp only [List.replicate_zero, runCommands, Stage.advance, Fin.ofNat_zero, add_zero]
    rfl
  | succ k ih =>
    rw [List.replicate_succ, runCommands_cons (exec_stdataRead_stage h),
      ih (s := { s with stage := s.stage.advance, dataOut := some s.stage.image[s.stage.ofs] }) h]
    simp only [Stage.advance, ofNat_succ]

/-- Writes of bytes to STDATA fill the Stage one after another. -/
theorem run_stdataWrites (h : Ready s) (bs : List Byte) : ∃ d, runCommands (bs.map .stdataWrite) s =
    .next { s with stage := bs.foldl Stage.write s.stage, dataOut := d } := by
  induction bs generalizing s with
  | nil => exact ⟨s.dataOut, rfl⟩
  | cons b bs ih =>
    rw [List.map_cons, runCommands_cons (exec_stdataWrite_stage h b)]
    exact ih (s := { s with stage := s.stage.write b, dataOut := none }) h

/-- Bytes that fit into positions 0 to 14 from STOFS on are stored there in order, and the rest of the image stays. -/
theorem Stage.foldl_write_fill (bs : List Byte) (x : Stage) (h : x.ofs.val + bs.length ≤ 15) :
    (bs.foldl Stage.write x).ofs.val = x.ofs.val + bs.length ∧
    ∀ i : Fin 24, (bs.foldl Stage.write x).image[i] =
      if i.val < x.ofs.val then x.image[i] else bs.getD (i.val - x.ofs.val) x.image[i] := by
  induction bs generalizing x with
  | nil => simp
  | cons b bs ih =>
    rw [List.length_cons] at h
    have hofs : (x.write b).ofs.val = x.ofs.val + 1 := (Stage.advance_ofs x).1 (by omega)
    obtain ⟨iho, ihi⟩ := ih (x.write b) (by omega)
    refine ⟨by rw [List.foldl_cons, iho, hofs, List.length_cons]; omega, fun i => ?_⟩
    rw [List.foldl_cons, ihi, hofs, Stage.write_get]
    rcases lt_trichotomy i x.ofs with hlt | rfl | hgt
    · have hlt' : i.val < x.ofs.val := hlt
      simp [hlt', Nat.lt_succ_of_lt hlt', hlt.ne]
    · have h15 : x.ofs.val < 15 := by omega
      simp [h15]
    · have hgt' : x.ofs.val < i.val := hgt
      obtain ⟨d, hd⟩ : ∃ d, i.val = x.ofs.val + (d + 1) := ⟨i.val - x.ofs.val - 1, by omega⟩
      have hstep : i.val - (x.ofs.val + 1) = d := by omega
      have hhere : i.val - x.ofs.val = d + 1 := by omega
      simp [Nat.not_lt.2 hgt'.le, Nat.not_lt.2 hgt', hgt.ne', hstep, hhere]

/-- Writes at positions 15 to 23, up to the last, bring STOFS back to 0 and leave the image as it was. -/
theorem Stage.foldl_write_snapshot (bs : List Byte) (x : Stage) (h15 : 15 ≤ x.ofs.val) (h : x.ofs.val + bs.length = 24) :
    bs.foldl Stage.write x = { x with ofs := 0 } := by
  induction bs generalizing x with
  | nil => have := x.ofs.isLt; simp at h; omega
  | cons b bs ih =>
    rw [List.length_cons] at h
    have hstep : x.write b = x.advance := by simp only [Stage.write, Nat.not_lt.2 h15, if_false]
    rw [List.foldl_cons, hstep]
    cases bs with
    | nil =>
      have hofs : x.advance.ofs = 0 := Fin.ext ((Stage.advance_ofs x).2 (by simpa using h))
      rw [List.foldl_nil, ← hofs]
      rfl
    | cons c bs =>
      rw [List.length_cons] at h
      have hofs := (Stage.advance_ofs x).1 (by omega)
      exact ih x.advance (by omega) (by rw [List.length_cons]; omega)

/-! ### The statements -/

/-- Settles O19. -/
theorem stofsSelectsAndStdataReadsReturn : Obligations.StofsSelectsAndStdataReadsReturn := by
  refine ⟨fun s v hr => ⟨fun k hk => ?_, fun hge => ?_, ?_⟩, fun s k hr hk => ?_, fun s k hr hofs => ?_⟩
  · have hlt : v.toNat < 24 := hk ▸ k.isLt
    rw [exec_stofsWrite_ready hr, stofsEffect, dif_pos hlt, show (⟨v.toNat, hlt⟩ : Fin 24) = k from Fin.ext hk]
    rfl
  · rw [exec_stofsWrite_ready hr, stofsEffect, dif_neg (by omega)]
    rfl
  · show (BitVec.ofNat 8 s.stage.ofs.val).toNat = s.stage.ofs.val
    rw [BitVec.toNat_ofNat]
    omega
  · subst hk
    exact ⟨s.stage.advance.ofs, (Stage.advance_ofs s.stage).1, (Stage.advance_ofs s.stage).2, exec_stdataRead_stage hr⟩
  · refine ⟨_, run_stdataReads hr k.val, ?_, rfl, fun h23 => ?_⟩
    · simp [hofs]
    · simp only [hofs, h23]
      rfl

/-- Settles O20. -/
theorem stdataWritesFillTheImage : Obligations.StdataWritesFillTheImage := by
  refine ⟨fun s v k hr hk => ?_, fun s bs hr hofs hlen => ?_, fun s bs hr hofs hlen => ?_⟩
  · subst hk
    exact ⟨(s.stage.write v).ofs, (s.stage.write v).image, (Stage.advance_ofs s.stage).1, (Stage.advance_ofs s.stage).2,
      exec_stdataWrite_stage hr v, s.stage.write_get v⟩
  · obtain ⟨d, hrun⟩ := run_stdataWrites hr bs
    obtain ⟨ho, hi⟩ := Stage.foldl_write_fill bs s.stage (by simp [hofs, hlen])
    refine ⟨_, hrun, by simpa [hofs, hlen] using ho, fun i => ?_⟩
    simpa [hofs] using hi i
  · obtain ⟨d, hrun⟩ := run_stdataWrites hr bs
    have hx := Stage.foldl_write_snapshot bs s.stage (by omega) (by omega)
    rw [hx] at hrun
    exact ⟨_, hrun, rfl, rfl⟩

end Sys2Proof.Machine
end

section
/-! SUPPORT. Laws along a step: what a bus access can do to the fields that the laws of the part speak of, and the case
analysis over the commands that makes a law of every step out of what each operation keeps. -/

namespace Sys2Proof.Machine

/-! ### The fields the laws speak of -/

/-- Two states agree in the Task Table, the Run Queue, the run state and the Conversion Unit. -/
structure SameWork (s t : State) : Prop where
  tasks : t.tasks = s.tasks
  runQueue : t.runQueue = s.runQueue
  runState : t.runState = s.runState
  conv : t.conv = s.conv

/-- Two states agree in every field that a law of the part speaks of. -/
structure SamePart (s t : State) : Prop extends SameWork s t where
  rq : t.rq = s.rq

theorem SameWork.task {s t : State} (h : SameWork s t) (n : Slot) : t.task n = s.task n := by
  simp only [State.task, h.tasks]

/-- All the change of a bus access can do to the Task Table, the Run Queue, the run state and the Conversion Unit. -/
inductive WorkChange (s : State) : State → Prop where
  | same {t : State} (h : SameWork s t) : WorkChange s t
  | commit (n : Slot) (c : TaskConfig) (hk : lockRefuses (s.task n) c = false) :
      WorkChange s (acceptCmd (s.setTask n (commitTask (s.task n) c)))
  | start (n : Slot) (h : (s.task n).rt.state = .stopped) : WorkChange s (acceptCmd (armTask n s))
  | stop (n : Slot) : WorkChange s (stopSlot n s)
  | due (kind : EntryKind) (n : Slot) : WorkChange s (acceptCmd (makeDue kind n s))
  | halt : WorkChange s (haltEffect s)
  | resume : WorkChange s (resumeEffect s)
  | reset (l : Level) : WorkChange s (resetEffect l s)

theorem workChange_refuse (s : State) (c : ResultCode) : WorkChange s (refuseCmd c s) := .same ⟨rfl, rfl, rfl, rfl⟩

theorem workChange_onSlot {s : State} {f : Slot → State → State} (h : ∀ n, WorkChange s (f n s)) :
    WorkChange s (onSlot f s) := by
  rcases onSlot_cases s f with ⟨_, e⟩ | ⟨n, _, e⟩ <;> rw [e]
  · exact workChange_refuse s _
  · exact h n

theorem workChange_commitSlot (s : State) (n : Slot) : WorkChange s (commitSlot n s) := by
  rcases commitSlot_cases n s with ⟨c, _, _, _, hk, e⟩ | ⟨code, e, _⟩ <;> rw [e]
  · exact .commit n c hk
  · exact workChange_refuse s code

theorem workChange_startSlot (s : State) (n : Slot) : WorkChange s (startSlot n s) := by
  unfold startSlot
  split
  · next h => exact .start n h
  · exact workChange_refuse s _

theorem workChange_triggerSlot (s : State) (n : Slot) : WorkChange s (triggerSlot n s) := by
  unfold triggerSlot
  split
  · exact workChange_refuse s _
  · exact .due _ n

theorem workChange_accessEffect (s : State) (i : Instr) (b : Byte) : WorkChange s (accessEffect i b s) := by
  cases i with
  | load => exact workChange_onSlot fun n => .same ⟨rfl, rfl, rfl, rfl⟩
  | commit => exact workChange_onSlot (workChange_commitSlot s)
  | start => exact workChange_onSlot (workChange_startSlot s)
  | stop => exact workChange_onSlot .stop
  | trigger => exact workChange_onSlot (workChange_triggerSlot s)
  | halt => exact .halt
  | resume => exact .resume
  | reset l => exact .reset l
  | discard =>
    show WorkChange s (discardEffect s)
    unfold discardEffect
    split <;> exact .same ⟨rfl, rfl, rfl, rfl⟩
  | stofsWrite v =>
    show WorkChange s (stofsEffect v s)
    unfold stofsEffect
    split <;> exact .same ⟨rfl, rfl, rfl, rfl⟩
  | rqdataRead =>
    show WorkChange s (rqdataEffect b s)
    unfold rqdataEffect
    split <;> exact .same ⟨rfl, rfl, rfl, rfl⟩
  | registerWrite a v =>
    show WorkChange s (registerWriteEffect a v s)
    unfold registerWriteEffect
    split <;> exact .same ⟨rfl, rfl, rfl, rfl⟩
  | _ => exact .same ⟨rfl, rfl, rfl, rfl⟩

/-! ### From the operations to every step -/

/-- A property of the state that depends on the fields of the laws alone, holds at reset, and is kept by the change of
every bus access, by every due cause of an edge or of an expiry, and by every event of the Conversion Unit. -/
structure StepKept (P : State → Prop) : Prop where
  same : ∀ {s t : State}, P s → SamePart s t → P t
  reset : P State.reset
  access : ∀ (i : Instr) (b : Byte) (s : State), P s → P (accessEffect i b s)
  due : ∀ (n : Slot) (s : State), P s → P (makeDue .normal n s)
  countdown : ∀ (n : Slot) (s : State), P s → P (countdownStep s n)
  take : ∀ s : State, P s → P (takeHead s)
  settling : ∀ s : State, P s → P (endSettling s)
  ranging : ∀ (v : BitVec 6) (s : State), P s → P (endRanging v s)
  sample : ∀ (code : BitVec 12) (o : Bool) (s : State), P s → P (takeSample code o s)
  delivery : ∀ (code : BitVec 12) (o : Bool) (s : State), P s → P (completeConversion code o s)

namespace StepKept

variable {P : State → Prop} (k : StepKept P) {s t : State}

include k

theorem takeWrite {c : Instr} {f : State → State} (h : ∀ u, P u → P (f u)) (hs : P s) : P (takeWrite c f s) := by
  rcases takeWrite_cases s c f with e | ⟨_, e⟩ <;> rw [e]
  · exact h _ (k.same hs ⟨⟨rfl, rfl, rfl, rfl⟩, rfl⟩)
  · exact k.same hs ⟨⟨rfl, rfl, rfl, rfl⟩, rfl⟩

theorem takeRead {c : Instr} {v : State → Byte} {f : Byte → State → State} (h : ∀ b u, P u → P (f b u)) (hs : P s) :
    P (takeRead c v f s) := by
  rcases takeRead_cases s c v f with e | ⟨_, _, e⟩ <;> rw [e]
  · exact h _ _ (k.same hs ⟨⟨rfl, rfl, rfl, rfl⟩, rfl⟩)
  · exact k.same hs ⟨⟨rfl, rfl, rfl, rfl⟩, rfl⟩

omit k in
theorem takeEvent {f : State → State} (h : ∀ u, P u → P (f u)) (hs : P s) : P (takeEvent f s) := by
  rcases takeEvent_cases s f with e | e <;> rw [e]
  · exact h s hs
  · exact hs

theorem tickExpiry (hs : P s) : P (tickExpiry s) := by
  have hs1 : P { s with tickPeriod := s.tickDiv, tickCount := s.tickCount + 1#16 } :=
    k.same hs ⟨⟨rfl, rfl, rfl, rfl⟩, rfl⟩
  by_cases h : s.runState = .running
  · rw [tickExpiry_running s h]
    exact moveCountdowns_keeps _ (fun u n => k.countdown n u) hs1
  · rw [tickExpiry_halted s h]
    exact hs1

theorem expiryOf (n : Slot) (hs : P s) : P (expiryOf n s) := by
  unfold Machine.expiryOf
  split
  · exact k.tickExpiry hs
  · exact hs

theorem recognisedEdge (hs : P s) : P (recognisedEdge s) :=
  recognisedEdge_keeps s (fun u n => k.due n u) (k.same hs ⟨⟨rfl, rfl, rfl, rfl⟩, rfl⟩)

theorem edgeEvent (hold : TrigHold) (hs : P s) : P (edgeEvent hold s) := by
  cases hold with
  | full => exact k.recognisedEdge hs
  | short =>
    have hs1 : P { s with freeCount := s.freeCount + 1 } := k.same hs ⟨⟨rfl, rfl, rfl, rfl⟩, rfl⟩
    unfold Machine.edgeEvent
    dsimp only
    split
    · exact k.recognisedEdge hs1
    · exact hs1

theorem powerOnEffect (l : Level) : P (powerOnEffect l s) := k.same k.reset ⟨⟨rfl, rfl, rfl, rfl⟩, rfl⟩

theorem resPulse (w : ResWidth) (l : Level) (hs : P s) : P (resPulse w l s) := by
  unfold Machine.resPulse
  dsimp only
  split
  · exact k.powerOnEffect l
  · split
    · exact k.same hs ⟨⟨rfl, rfl, rfl, rfl⟩, rfl⟩
    · exact hs

theorem makeWaiting (ws : List WaitingAccess) (hs : P s) : P (makeWaiting ws s) := by
  induction ws generalizing s with
  | nil => exact hs
  | cons w ws ih => exact ih (k.access w.access w.returned s hs)

theorem exec {i : Instr} (hs : P s) (h : exec i s = .next t) : P t := by
  have access := k.access i
  cases i with
  | powerOnReset w l => cases h; exact k.resPulse w l hs
  | vccApplied => cases h; exact k.same (k.powerOnEffect (s := s) .low) ⟨⟨rfl, rfl, rfl, rfl⟩, rfl⟩
  | clkStop => cases h; exact k.same hs ⟨⟨rfl, rfl, rfl, rfl⟩, rfl⟩
  | clkRunsAgain => cases h; exact k.makeWaiting _ (k.same hs ⟨⟨rfl, rfl, rfl, rfl⟩, rfl⟩)
  | badCmd code =>
    simp only [Machine.exec, execBadCmd] at h
    split at h <;> cases h
    exact k.takeWrite (access 0#8) hs
  | registerWrite a v =>
    simp only [Machine.exec, execRegisterWrite] at h
    split at h <;> cases h
    exact k.takeWrite (access 0#8) hs
  | load | commit | start | stop | trigger | halt | resume | flush | discard | reset | stofsWrite | stdataWrite =>
    cases h
    exact k.takeWrite (access 0#8) hs
  | stdataRead | rqdataRead | lostcntRead | taskLatchRead | slatRead | ticklRead =>
    cases h
    exact k.takeRead access hs
  | trigEdge hold => cases h; exact takeEvent (fun _ => k.edgeEvent hold) hs
  | tick => cases h; exact takeEvent (fun _ => k.tickExpiry) hs
  | countdownExpiry n => cases h; exact takeEvent (fun _ => k.expiryOf n) hs
  | take => cases h; exact takeEvent k.take hs
  | settlingExpiry => cases h; exact takeEvent k.settling hs
  | coarseConversionEnd v => cases h; exact takeEvent (k.ranging v) hs
  | sample code o => cases h; exact takeEvent (k.sample code o) hs
  | delivery code o => cases h; exact takeEvent (k.delivery code o) hs

/-- A property that the operations keep is kept by every step. -/
theorem step (hs : P s) (h : step s = .next t) : P t := by
  unfold Machine.step at h
  split at h
  · cases h
    exact hs
  · next c rest _ => exact k.exec (k.same (t := { s with pending := rest }) hs ⟨⟨rfl, rfl, rfl, rfl⟩, rfl⟩) h

end StepKept

end Sys2Proof.Machine
end

section
/-! SUPPORT. The laws of the Scheduler along every step (L1, L2, L9 and the order of ranks: R38, R42, R48): the laws of the
Run Queue's entries and those of the current task, each kept by the operations that move tasks. -/

namespace Sys2Proof.Machine

variable {s t : State}

/-! ### Task states after an operation -/

theorem makeDue_state (s : State) (kind : EntryKind) (n m : Slot) : ((makeDue kind n s).task m).rt.state =
    if m = n ∧ (s.task n).rt.state = .armed then .queued else (s.task m).rt.state := by
  by_cases hm : m = n
  · subst hm
    rcases makeDue_cases s kind m with ⟨h, e⟩ | ⟨h, e⟩ | ⟨h, e⟩ <;> rw [e]
    · simp [enterTask_task, h]
    · rcases h with h | h <;> simp [missTask_task, h]
    · simp [h]
  · rw [makeDue_task_other s hm]
    simp [hm]

theorem makeDue_runQueue_busy {kind : EntryKind} {n : Slot} (h : (s.task n).rt.state ≠ .armed) :
    (makeDue kind n s).runQueue = s.runQueue := by
  rcases makeDue_cases s kind n with ⟨ha, _⟩ | ⟨_, e⟩ | ⟨_, e⟩
  · exact absurd ha h
  · rw [e, missTask_runQueue]
  · rw [e]

theorem makeDue_runQueue_armed {kind : EntryKind} {n : Slot} (h : (s.task n).rt.state = .armed) :
    (makeDue kind n s).runQueue = placeEntry kind n (s.task n).cfg.priority s.runQueue := by
  rw [makeDue_armed s h]
  rfl

theorem modRuntime_state (s : State) (n m : Slot) (f : TaskRuntime → TaskRuntime) :
    ((s.modRuntime n f).task m).rt.state = if m = n then (f (s.task n).rt).state else (s.task m).rt.state := by
  rw [State.modRuntime_task]
  split <;> rfl

/-- One slot's part of an expiry, by what the countdown does. -/
theorem countdownStep_cases (s : State) (n : Slot) :
    (countdownActive (s.task n) = false ∧ countdownStep s n = s) ∨
    (countdownActive (s.task n) = true ∧ (s.task n).rt.countdown = 1#16 ∧
      countdownStep s n = makeDue .normal n (s.modRuntime n fun r => { r with countdown := (s.task n).cfg.period })) ∨
    (countdownActive (s.task n) = true ∧ (s.task n).rt.countdown ≠ 1#16 ∧
      countdownStep s n = s.modRuntime n fun r => { r with countdown := r.countdown - 1#16 }) := by
  cases ha : countdownActive (s.task n) with
  | false => exact .inl ⟨rfl, countdownStep_idle s ha⟩
  | true =>
    by_cases h1 : (s.task n).rt.countdown = 1#16
    · exact .inr (.inl ⟨rfl, h1, by simp [countdownStep, ha, h1]⟩)
    · refine .inr (.inr ⟨rfl, h1, ?_⟩)
      have h0 : (s.task n).rt.countdown - 1#16 ≠ 0#16 := fun h => h1 (by bv_omega)
      simp [countdownStep, ha, h0]

/-! ### The entries of the Run Queue (L1, R38) -/

/-- The laws of the Run Queue's entries: a slot has an entry exactly when its task is QUEUED, and one only, and the ranks
never rise. -/
structure EntryLaws (s : State) : Prop where
  queued : ∀ n : Slot, (∃ e ∈ s.runQueue, e.slot = n) ↔ (s.task n).rt.state = .queued
  once : (s.runQueue.map fun e => e.slot).Nodup
  ranks : s.runQueue.Pairwise fun a b => b.rank ≤ a.rank

/-- The entries' laws speak of the Run Queue and of which tasks are QUEUED. -/
theorem EntryLaws.congr (h : EntryLaws s) (hq : t.runQueue = s.runQueue)
    (hst : ∀ n, (t.task n).rt.state = .queued ↔ (s.task n).rt.state = .queued) : EntryLaws t where
  queued n := by rw [hq, hst, h.queued]
  once := hq ▸ h.once
  ranks := hq ▸ h.ranks

theorem EntryLaws.makeDue (h : EntryLaws s) (kind : EntryKind) (n : Slot) : EntryLaws (makeDue kind n s) := by
  by_cases ha : (s.task n).rt.state = .armed
  · have hq := makeDue_runQueue_armed (kind := kind) ha
    obtain ⟨e, he, hp⟩ := placeEntry_perm kind n (s.task n).cfg.priority s.runQueue
    refine ⟨fun m => ?_, ?_, hq ▸ placeEntry_ranks kind n _ h.ranks⟩
    · simp only [makeDue_state, ha, hq, hp.mem_iff, List.mem_cons, exists_eq_or_imp, h.queued, he, and_true]
      by_cases hm : m = n
      · simp [hm]
      · simp [hm, Ne.symm hm]
    · have hnew : n ∉ s.runQueue.map fun e => e.slot := fun hn => by
        obtain ⟨x, hx, rfl⟩ := List.mem_map.1 hn
        have := (h.queued x.slot).1 ⟨x, hx, rfl⟩
        simp [ha] at this
      rw [hq, (hp.map _).nodup_iff, List.map_cons, he]
      exact List.nodup_cons.2 ⟨hnew, h.once⟩
  · refine h.congr (makeDue_runQueue_busy ha) fun m => ?_
    simp [makeDue_state, ha]

/-- The entry of a slot leaves together with its task's state QUEUED, the others stay. -/
theorem EntryLaws.leave (h : EntryLaws s) {n : Slot} (hsub : t.runQueue.Sublist s.runQueue)
    (hmem : ∀ e, e ∈ t.runQueue ↔ e ∈ s.runQueue ∧ e.slot ≠ n)
    (hst : ∀ m, (t.task m).rt.state = .queued ↔ m ≠ n ∧ (s.task m).rt.state = .queued) : EntryLaws t where
  queued m := by
    rw [hst, ← h.queued]
    constructor
    · rintro ⟨e, he, rfl⟩
      exact ⟨((hmem e).1 he).2, e, ((hmem e).1 he).1, rfl⟩
    · rintro ⟨hm, e, he, rfl⟩
      exact ⟨e, (hmem e).2 ⟨he, hm⟩, rfl⟩
  once := h.once.sublist (hsub.map _)
  ranks := h.ranks.sublist hsub

/-! ### The current task and the run state (L2, L9, R162) -/

/-- The laws of the current task: it is the one CONVERTING task, HALTED means IDLE, and HALTING is not IDLE. -/
structure CurrentTaskLaws (s : State) : Prop where
  converting : ∀ n : Slot, (s.task n).rt.state = .converting ↔ s.conv.map (fun c => c.slot) = some n
  halted : s.runState = .halted → s.conv = none
  halting : s.runState = .halting → s.conv ≠ none

theorem CurrentTaskLaws.congr (h : CurrentTaskLaws s) (hc : t.conv = s.conv) (hr : t.runState = s.runState)
    (hst : ∀ n, (t.task n).rt.state = .converting ↔ (s.task n).rt.state = .converting) : CurrentTaskLaws t where
  converting n := by rw [hst, hc, h.converting]
  halted e := hc ▸ h.halted (hr ▸ e)
  halting e := hc ▸ h.halting (hr ▸ e)

/-- With the unit IDLE the laws ask for no CONVERTING task and no halt in progress. -/
theorem CurrentTaskLaws.of_idle (hc : s.conv = none) (hr : s.runState ≠ .halting)
    (hst : ∀ n, (s.task n).rt.state ≠ .converting) : CurrentTaskLaws s where
  converting n := by simp [hc, hst]
  halted _ := hc
  halting h := absurd h hr

theorem CurrentTaskLaws.makeDue (h : CurrentTaskLaws s) (kind : EntryKind) (n : Slot) :
    CurrentTaskLaws (makeDue kind n s) := by
  refine h.congr (makeDue_conv s kind n) (makeDue_runState s kind n) fun m => ?_
  rw [makeDue_state]
  by_cases hm : m = n ∧ (s.task n).rt.state = .armed
  · obtain ⟨rfl, ha⟩ := hm
    simp [ha]
  · simp [hm]

/-- A change of the conversion in progress that keeps its slot keeps the laws of the current task. -/
theorem CurrentTaskLaws.setConv (h : CurrentTaskLaws s) {c d : Conversion} (hc : s.conv = some c)
    (hd : d.slot = c.slot) : CurrentTaskLaws (s.setConv (some d)) where
  converting n := by
    rw [State.setConv_task, h.converting, hc]
    simp [hd]
  halted e := by
    have := h.halted e
    simp [hc] at this
  halting _ := by simp

/-- The end of a conversion leaves no halt in progress (R50). -/
theorem endHalt_not_halting (r : RunState) : (if r = .halting then RunState.halted else r) ≠ .halting := by
  cases r <;> simp

/-! ### Both together -/

theorem schedulerLaws_iff : SchedulerLaws s ↔ EntryLaws s ∧ CurrentTaskLaws s :=
  ⟨fun h => ⟨⟨h.queued, h.once, h.ranks⟩, ⟨h.converting, h.halted, h.halting⟩⟩,
    fun ⟨e, c⟩ => ⟨e.queued, e.once, e.ranks, c.converting, c.halted, c.halting⟩⟩

theorem SchedulerLaws.entries (h : SchedulerLaws s) : EntryLaws s := (schedulerLaws_iff.1 h).1

theorem SchedulerLaws.current (h : SchedulerLaws s) : CurrentTaskLaws s := (schedulerLaws_iff.1 h).2

/-- The laws of the Scheduler speak of the Run Queue, the task states, the conversion and the run state. -/
theorem SchedulerLaws.congr (h : SchedulerLaws s) (hq : t.runQueue = s.runQueue) (hc : t.conv = s.conv)
    (hr : t.runState = s.runState) (hst : ∀ n, (t.task n).rt.state = (s.task n).rt.state) : SchedulerLaws t :=
  schedulerLaws_iff.2 ⟨h.entries.congr hq fun n => by rw [hst], h.current.congr hc hr fun n => by rw [hst]⟩

theorem SchedulerLaws.sameWork (h : SchedulerLaws s) (hw : SameWork s t) : SchedulerLaws t :=
  h.congr hw.runQueue hw.conv hw.runState fun n => by rw [hw.task]

theorem SchedulerLaws.makeDue (h : SchedulerLaws s) (kind : EntryKind) (n : Slot) : SchedulerLaws (makeDue kind n s) :=
  schedulerLaws_iff.2 ⟨h.entries.makeDue kind n, h.current.makeDue kind n⟩

/-- A change of a runtime part that keeps the task state keeps the laws. -/
theorem SchedulerLaws.modRuntime (h : SchedulerLaws s) (n : Slot) {f : TaskRuntime → TaskRuntime}
    (hf : (f (s.task n).rt).state = (s.task n).rt.state) : SchedulerLaws (s.modRuntime n f) :=
  h.congr rfl rfl rfl fun m => by
    rw [modRuntime_state]
    split <;> simp_all

theorem SchedulerLaws.countdownStep (h : SchedulerLaws s) (n : Slot) : SchedulerLaws (countdownStep s n) := by
  rcases countdownStep_cases s n with ⟨_, e⟩ | ⟨_, _, e⟩ | ⟨_, _, e⟩ <;> rw [e]
  · exact h
  · exact (h.modRuntime n rfl).makeDue .normal n
  · exact h.modRuntime n rfl

/-! ### Commands (R44, R45, R49, R51, R54) -/

/-- A STOPPED task that becomes ARMED has no entry and is not the current task, before and after. -/
theorem SchedulerLaws.arm (h : SchedulerLaws s) {n : Slot} (hn : (s.task n).rt.state = .stopped) (w : Word16) :
    SchedulerLaws (s.modRuntime n fun r => { r with state := .armed, countdown := w }) := by
  refine schedulerLaws_iff.2 ⟨h.entries.congr rfl fun m => ?_, h.current.congr rfl rfl fun m => ?_⟩ <;>
    rw [modRuntime_state] <;> split <;> simp_all

theorem SchedulerLaws.armTask (h : SchedulerLaws s) {n : Slot} (hn : (s.task n).rt.state = .stopped) :
    SchedulerLaws (armTask n s) := by
  unfold Machine.armTask
  dsimp only
  split
  · exact (h.arm hn _).makeDue .normal n
  · exact h.arm hn _

theorem giveUpWork_task (s : State) (n m : Slot) : (giveUpWork n s).task m = s.task m := by
  simp only [State.task, giveUpWork_tasks]

theorem stopSlot_task (s : State) (n m : Slot) : (stopSlot n s).task m =
    if m = n then { s.task n with rt := { (s.task n).rt with state := .stopped, zone := .unknown } } else s.task m := by
  rw [stopSlot, acceptCmd_task, State.modRuntime_task, giveUpWork_task, giveUpWork_task]

theorem stopSlot_state (s : State) (n m : Slot) :
    ((stopSlot n s).task m).rt.state = if m = n then .stopped else (s.task m).rt.state := by
  rw [stopSlot_task]
  split <;> rfl

/-- STOP of a task that neither waits nor converts touches its record and CMDST (R45). -/
theorem stopSlot_idle {n : Slot} (h : (s.task n).rt.state = .stopped ∨ (s.task n).rt.state = .armed) :
    stopSlot n s = { s with tasks := (stopSlot n s).tasks, cmdst := .ok } := by
  rcases h with h | h <;> simp only [stopSlot, giveUpWork, h] <;> rfl

/-- STOP of a QUEUED task removes its entry (R41, R45). -/
theorem stopSlot_queued {n : Slot} (h : (s.task n).rt.state = .queued) :
    stopSlot n s =
      { s with tasks := (stopSlot n s).tasks, runQueue := removeEntry n s.runQueue, cmdst := .ok } := by
  simp only [stopSlot, giveUpWork, h]
  rfl

/-- STOP of the CONVERTING task abandons its conversion and ends a halt in progress (R45, R50, R70). -/
theorem stopSlot_converting {n : Slot} (h : (s.task n).rt.state = .converting) :
    stopSlot n s = { s with
      tasks := (stopSlot n s).tasks
      conv := none
      runState := if s.runState = .halting then .halted else s.runState
      sysLatch := { s.sysLatch with abort := true, halted := s.sysLatch.halted || (s.runState == .halting) }
      cmdst := .ok } := by
  simp only [stopSlot, giveUpWork, h]
  rw [abandonConversion, endHalt_eq]
  rfl

theorem SchedulerLaws.stopSlot (h : SchedulerLaws s) (n : Slot) : SchedulerLaws (stopSlot n s) := by
  have hst := stopSlot_state s n
  cases hn : (s.task n).rt.state with
  | stopped | armed =>
    have e := stopSlot_idle (s := s) (n := n) (by simp [hn])
    refine schedulerLaws_iff.2 ⟨h.entries.congr (by rw [e]) fun m => ?_,
      h.current.congr (by rw [e]) (by rw [e]) fun m => ?_⟩ <;> by_cases hm : m = n <;> simp [hst, hm, hn]
  | queued =>
    have e := stopSlot_queued hn
    have hq : (Machine.stopSlot n s).runQueue = removeEntry n s.runQueue := by rw [e]
    refine schedulerLaws_iff.2 ⟨h.entries.leave (n := n) (hq ▸ removeEntry_sublist n _) (by simp [hq]) fun m => ?_,
      h.current.congr (by rw [e]) (by rw [e]) fun m => ?_⟩ <;> by_cases hm : m = n <;> simp [hst, hm, hn]
  | converting =>
    have e := stopSlot_converting hn
    have hcur := (h.converting n).1 hn
    refine schedulerLaws_iff.2 ⟨h.entries.congr (by rw [e]) fun m => ?_,
      .of_idle (by rw [e]) (by rw [e]; exact endHalt_not_halting _) fun m => ?_⟩
    · by_cases hm : m = n <;> simp [hst, hm, hn]
    · rw [hst]
      split
      · simp
      · next hm =>
        rw [ne_eq, h.converting, hcur]
        simpa using Ne.symm hm

theorem SchedulerLaws.haltEffect (h : SchedulerLaws s) : SchedulerLaws (haltEffect s) := by
  refine schedulerLaws_iff.2 ⟨h.entries.congr ?_ fun n => ?_, ?_⟩
  · unfold Machine.haltEffect haltRun
    repeat' split
    all_goals rfl
  · rw [Machine.haltEffect, acceptCmd_task, State.task, haltRun_tasks]
    rfl
  · unfold Machine.haltEffect haltRun
    split
    · split
      · next hc => exact ⟨h.converting, nofun, fun _ => Option.isSome_iff_ne_none.1 hc⟩
      · next hc => exact ⟨h.converting, fun _ => Option.not_isSome_iff_eq_none.1 hc, nofun⟩
    · exact ⟨h.converting, h.halted, h.halting⟩

theorem SchedulerLaws.resumeEffect (h : SchedulerLaws s) : SchedulerLaws (resumeEffect s) :=
  ⟨h.queued, h.once, h.ranks, h.converting, nofun, nofun⟩

theorem resetEffect_task (s : State) (l : Level) (n : Slot) :
    (resetEffect l s).task n = { cfg := (s.task n).cfg, rt := defaultRuntime } := by
  simp [State.task, resetEffect, resetRuntimes]

theorem schedulerLaws_resetEffect (s : State) (l : Level) : SchedulerLaws (resetEffect l s) where
  queued n := by
    rw [resetEffect_task]
    constructor
    · rintro ⟨e, he, _⟩
      cases he
    · nofun
  once := .nil
  ranks := .nil
  converting n := by
    rw [resetEffect_task]
    constructor <;> nofun
  halted _ := rfl
  halting := nofun

theorem SchedulerLaws.workChange (h : SchedulerLaws s) (hw : WorkChange s t) : SchedulerLaws t := by
  cases hw with
  | same hw => exact h.sameWork hw
  | commit n c _ =>
    refine h.congr rfl rfl rfl fun m => ?_
    rw [acceptCmd_task, State.setTask_task]
    split
    · next hm => rw [hm]; rfl
    · rfl
  | start n hn => exact (h.armTask hn).sameWork ⟨rfl, rfl, rfl, rfl⟩
  | stop n => exact h.stopSlot n
  | due kind n => exact (h.makeDue kind n).sameWork ⟨rfl, rfl, rfl, rfl⟩
  | halt => exact h.haltEffect
  | resume => exact h.resumeEffect
  | reset l => exact schedulerLaws_resetEffect s l

/-! ### Events of the Conversion Unit (R42, R46, R58 to R61) -/

/-- Behind the head of the Run Queue stand the entries of the other slots (L1). -/
theorem EntryLaws.mem_rest (h : EntryLaws s) {e : RunEntry} {rest : List RunEntry} (hq : s.runQueue = e :: rest)
    (x : RunEntry) : x ∈ rest ↔ x ∈ s.runQueue ∧ x.slot ≠ e.slot := by
  have honce := h.once
  rw [hq, List.map_cons, List.nodup_cons] at honce
  rw [hq, List.mem_cons]
  constructor
  · exact fun hx => ⟨.inr hx, fun he => honce.1 (he ▸ List.mem_map_of_mem hx)⟩
  · rintro ⟨rfl | hx, hne⟩
    · exact absurd rfl hne
    · exact hx

/-- The head entry leaves and its task becomes the current one (R42, R57). -/
theorem SchedulerLaws.takeHead (h : SchedulerLaws s) : SchedulerLaws (takeHead s) := by
  by_cases hcond : s.conv = none ∧ s.runState = .running ∧ s.runQueue ≠ []
  · obtain ⟨hc, hr, hq⟩ := hcond
    obtain ⟨e, rest, hq⟩ := List.exists_cons_of_ne_nil hq
    rw [takeHead_taken hc hr hq]
    have hst : ∀ m, ((((s.setTaskState e.slot .converting).setRunQueue rest).setConv
        (some (startConversion e.slot (s.task e.slot)))).task m).rt.state =
        if m = e.slot then .converting else (s.task m).rt.state := fun m =>
      modRuntime_state s e.slot m fun r => { r with state := .converting }
    have hidle : ∀ m, (s.task m).rt.state ≠ .converting := fun m hm => by
      have := (h.converting m).1 hm
      simp [hc] at this
    have hrun : s.runState ≠ .halted ∧ s.runState ≠ .halting := by simp [hr]
    refine schedulerLaws_iff.2 ⟨h.entries.leave (n := e.slot) ?_ (h.entries.mem_rest hq) fun m => ?_,
      ⟨fun m => ?_, fun hh => absurd hh hrun.1, fun hh => absurd hh hrun.2⟩⟩
    · rw [hq]
      exact List.sublist_cons_self e rest
    · rw [hst]
      split <;> simp_all
    · rw [hst]
      show _ ↔ some e.slot = some m
      by_cases hm : m = e.slot <;> simp [hm, hidle, eq_comm]
  · rw [takeHead_not (by tauto)]
    exact h

theorem SchedulerLaws.setConv (h : SchedulerLaws s) {c d : Conversion} (hc : s.conv = some c) (hd : d.slot = c.slot) :
    SchedulerLaws (s.setConv (some d)) :=
  schedulerLaws_iff.2 ⟨h.entries.congr rfl fun _ => Iff.rfl, h.current.setConv hc hd⟩

theorem SchedulerLaws.endSettling (h : SchedulerLaws s) : SchedulerLaws (endSettling s) := by
  unfold Machine.endSettling
  split
  · next c hc =>
    split
    · exact h.setConv hc rfl
    · exact h
  · exact h

theorem SchedulerLaws.endRanging (h : SchedulerLaws s) (v : BitVec 6) : SchedulerLaws (endRanging v s) := by
  unfold Machine.endRanging
  split
  · next c hc =>
    split
    · exact h.setConv hc rfl
    · exact h
  · exact h

theorem SchedulerLaws.takeSample (h : SchedulerLaws s) (code : BitVec 12) (o : Bool) :
    SchedulerLaws (takeSample code o s) := by
  unfold Machine.takeSample
  split
  · next c hc =>
    split
    · exact h.setConv hc rfl
    · exact h
  · exact h

/-- A link makes its target due, or there is none (R36). -/
theorem followLink_cases (n : Slot) (s : State) :
    followLink n s = s ∨ ∃ m, followLink n s = makeDue .chained m s := by
  cases hl : (s.task n).cfg.link with
  | none => exact .inl (followLink_none s hl)
  | some m => exact .inr ⟨m, followLink_some s hl⟩

/-- The Scheduler's part of a delivery, from the state that the measuring blocks leave: the unit is IDLE, and the
delivering task is the one that is still CONVERTING (R46, R50). -/
theorem schedulerLaws_schedulerPart {n : Slot} (he : EntryLaws s) (hc : s.conv = none)
    (hst : ∀ m, (s.task m).rt.state = .converting ↔ m = n) : SchedulerLaws (schedulerPart n s) := by
  let u := leaveConverting n s
  have hu : ∀ m, (u.task m).rt.state =
      if m = n then (if (s.task n).cfg.single then .stopped else .armed) else (s.task m).rt.state := fun m =>
    modRuntime_state s n m _
  have heu : EntryLaws u := he.congr rfl fun m => by
    rw [hu]
    split
    · next hm =>
      have hconv := (hst m).2 hm
      split <;> simp [hconv]
    · rfl
  have hidle : ∀ m, (u.task m).rt.state ≠ .converting := fun m => by
    rw [hu]
    split
    · split <;> simp
    · next hm => exact mt (hst m).1 hm
  have hv : EntryLaws (followLink n u) ∧ ∀ m, ((followLink n u).task m).rt.state ≠ .converting := by
    rcases followLink_cases n u with e | ⟨k, e⟩ <;> rw [e]
    · exact ⟨heu, hidle⟩
    · refine ⟨heu.makeDue .chained k, fun m => ?_⟩
      rw [makeDue_state]
      split
      · simp
      · exact hidle m
  refine schedulerLaws_iff.2 ⟨hv.1.congr ?_ fun m => ?_, .of_idle ?_ ?_ fun m => ?_⟩
  · rw [schedulerPart, endHalt_eq]
  · rw [schedulerPart, endHalt_task]
  · rw [schedulerPart_frame]
    exact hc
  · rw [schedulerPart_frame]
    exact endHalt_not_halting _
  · rw [schedulerPart, endHalt_task]
    exact hv.2 m

theorem measured_runQueue (r : ConvResult) (s : State) : (measured r s).runQueue = s.runQueue := by rw [measured_frame]

theorem measured_conv (r : ConvResult) (s : State) : (measured r s).conv = none := by rw [measured_frame]

theorem SchedulerLaws.deliverResult (h : SchedulerLaws s) {c : Conversion} (hc : s.conv = some c) {r : ConvResult}
    (hr : r.slot = c.slot) : SchedulerLaws (deliverResult r s) := by
  rw [deliverResult_eq]
  refine schedulerLaws_schedulerPart (h.entries.congr (measured_runQueue r s) fun n => ?_) (measured_conv r s) fun m => ?_
  · rw [measured_state]
  · rw [measured_state, h.converting, hc, hr]
    simp [eq_comm]

theorem SchedulerLaws.completeConversion (h : SchedulerLaws s) (code : BitVec 12) (o : Bool) :
    SchedulerLaws (completeConversion code o s) := by
  unfold Machine.completeConversion
  split
  · next c hc =>
    split
    · exact h.deliverResult hc rfl
    · exact h
  · exact h

/-! ### Every step -/

theorem schedulerLaws_stepKept : StepKept SchedulerLaws where
  same h hp := h.sameWork hp.toSameWork
  reset := reset_schedulerLaws
  access i b s h := h.workChange (workChange_accessEffect s i b)
  due n _ h := h.makeDue .normal n
  countdown n _ h := h.countdownStep n
  take _ h := h.takeHead
  settling _ h := h.endSettling
  ranging v _ h := h.endRanging v
  sample code o _ h := h.takeSample code o
  delivery code o _ h := h.completeConversion code o

/-- Settles O55: each operation of the Scheduler and each event of the unit keeps the laws, and a command is made of
these. -/
theorem stepKeepsSchedulerLaws : Obligations.StepKeepsSchedulerLaws := fun _ _ h e => schedulerLaws_stepKept.step h e

end Sys2Proof.Machine
end

section
/-! SUPPORT. The laws of the Result Queue (L3, L4, L5, L11: R111, R117, R118, R127) under its operations, under the change of
every bus access and under a delivery. -/

namespace Sys2Proof.Machine

variable {q q' : ResultQueue}

/-! ### The operations of the queue -/

/-- The laws speak of the records, the next number and the open record. -/
theorem QueueLaws.congr (h : QueueLaws q) (hr : q'.records = q.records) (hn : q'.nextSeq = q.nextSeq)
    (hi : q'.readIndex = q.readIndex) : QueueLaws q' where
  bytes := by rw [ResultQueue.rqbytes, hr]; exact h.bytes
  seqs := by rw [hr, hn]; exact h.seqs
  paired := by rw [hr]; exact h.paired
  valid := by rw [hr]; exact h.valid
  opened := by rw [hr, hi]; exact h.opened

/-- Removing records from the oldest end, with none left open, keeps the laws. -/
theorem QueueLaws.drop (h : QueueLaws q) {k : Nat} (hr : q'.records = q.records.drop k) (hn : q'.nextSeq = q.nextSeq)
    (hi : q'.readIndex = none) : QueueLaws q' where
  bytes := by
    rw [ResultQueue.rqbytes, hr]
    exact (bytesOf_drop_le k _).trans h.bytes
  seqs := by rw [hr, hn]; exact h.seqs.drop k
  paired := by rw [hr]; exact h.paired.drop k
  valid r hm := h.valid r (List.mem_of_mem_drop (hr ▸ hm))
  opened i he := by simp [hi] at he

/-- What an insertion appends is well composed and ends in a RESULT record. -/
theorem addedRecords_laws (q : ResultQueue) {b : RecordBody} (hb : b.zone ≠ .unknown ∧ b.miss ≠ some 0#8) :
    GapsPaired (addedRecords q b) ∧ ∀ r ∈ addedRecords q b, RecordValid r := by
  unfold addedRecords
  split
  · simp [GapsPaired, QRecord.isGap, RecordValid, hb]
  · next hg => simp [GapsPaired, QRecord.isGap, RecordValid, hb, hg]

/-- An insertion numbers the records it appends on from the next number. -/
theorem SeqRun.append_added (h : SeqRun q.nextSeq q.records) (b : RecordBody) :
    SeqRun (q.nextSeq + BitVec.ofNat 8 (addedRecords q b).length) (q.records ++ addedRecords q b) := by
  unfold addedRecords
  split
  · exact h.append rfl
  · have h2 := (h.append (r := .gap q.nextSeq q.pendingGap) rfl).append (r := .result (q.nextSeq + 1#8) b) rfl
    rw [List.append_assoc, BitVec.add_assoc] at h2
    exact h2

/-- Storing a record for which there is room keeps the laws. -/
theorem QueueLaws.storeRecord (h : QueueLaws q) {b : RecordBody} (hb : b.zone ≠ .unknown ∧ b.miss ≠ some 0#8)
    (hroom : neededSpace q b ≤ q.free) : QueueLaws (storeRecord b q) := by
  obtain ⟨hpair, hvalid⟩ := addedRecords_laws q hb
  rw [storeRecord_eq]
  refine ⟨?_, h.seqs.append_added b, h.paired.append hpair, fun r hr => ?_, fun i hi => ?_⟩
  · have hbytes := h.bytes
    simp only [ResultQueue.free, ResultQueue.rqbytes, bytesOf_append, bytesOf_added] at *
    omega
  · exact (List.mem_append.1 hr).elim (h.valid r) (hvalid r)
  · obtain ⟨r, rs, hrec, hlo, hhi⟩ := h.opened i hi
    exact ⟨r, rs ++ addedRecords q b, by simp [hrec], hlo, hhi⟩

theorem QueueLaws.insertRecord (h : QueueLaws q) {b : RecordBody} (hb : b.zone ≠ .unknown ∧ b.miss ≠ some 0#8) :
    QueueLaws (insertRecord b q) := by
  rcases insertRecord_cases q b with ⟨hroom, _, e⟩ | ⟨_, _, hi, _, e⟩ | ⟨_, _, _, e⟩ <;> rw [e]
  · exact h.storeRecord hb hroom
  · obtain ⟨k, _, hk, _⟩ := evictUntil_eq_drop (neededSpace q b) q.records
    have hneed := (neededSpace_bounds q b).2
    exact (h.drop (q' := evictRecords (neededSpace q b) q) hk rfl hi).storeRecord hb
      (evictUntil_room (need := neededSpace q b) (by omega) q.records)
  · exact h.congr rfl rfl rfl

theorem QueueLaws.removeOldest (h : QueueLaws q) : QueueLaws (removeOldest q) := h.drop (k := 1) rfl rfl rfl

theorem QueueLaws.advanceRead (h : QueueLaws q) : QueueLaws (advanceRead q) := by
  cases hr : q.records with
  | nil => rw [advanceRead_empty hr]; exact h
  | cons r rs =>
    have opened_at : ∀ j, 1 ≤ j → j < r.length → QueueLaws { q with readIndex := some j } := fun j h1 hj =>
      ⟨h.bytes, h.seqs, h.paired, h.valid, fun i hi => by
        obtain rfl : j = i := by simpa using hi
        exact ⟨r, rs, hr, h1, hj⟩⟩
    cases hi : q.readIndex with
    | none =>
      rw [advanceRead_open hr hi]
      exact opened_at 1 le_rfl (by have := r.length_bounds; omega)
    | some i =>
      by_cases hl : i + 1 < r.length
      · rw [advanceRead_next hr hi hl]
        exact opened_at (i + 1) (by omega) hl
      · rw [advanceRead_retire hr hi (by omega)]
        exact h.drop (k := 1) (by simp [hr]) rfl rfl

theorem QueueLaws.flushQueue (h : QueueLaws q) : QueueLaws (flushQueue q) :=
  h.drop (k := q.records.length) (by simp [Machine.flushQueue]) rfl rfl

/-! ### The change of a bus access -/

variable {s : State}

theorem armTask_rq (s : State) (n : Slot) : (armTask n s).rq = s.rq := by
  unfold armTask
  dsimp only
  split
  · rw [makeDue_rq, State.modRuntime_rq]
  · rfl

theorem stopSlot_rq (s : State) (n : Slot) : (stopSlot n s).rq = s.rq := by
  cases hn : (s.task n).rt.state with
  | stopped | armed => rw [stopSlot_idle (by simp [hn])]
  | queued => rw [stopSlot_queued hn]
  | converting => rw [stopSlot_converting hn]

/-- A slot command's change keeps the Result Queue when its change of the slot does. -/
theorem onSlot_rq (s : State) {f : Slot → State → State} (h : ∀ n, (f n s).rq = s.rq) : (onSlot f s).rq = s.rq := by
  rcases onSlot_cases s f with ⟨_, e⟩ | ⟨n, _, e⟩ <;> rw [e]
  · rfl
  · exact h n

theorem QueueLaws.accessEffect (h : QueueLaws s.rq) (i : Instr) (b : Byte) : QueueLaws (accessEffect i b s).rq := by
  have kept {t : State} (e : t.rq = s.rq) : QueueLaws t.rq := e ▸ h
  cases i with
  | load => exact kept (onSlot_rq s fun _ => rfl)
  | commit =>
    refine kept (onSlot_rq s fun n => ?_)
    rcases commitSlot_cases n s with ⟨_, _, _, _, _, e⟩ | ⟨_, e, _⟩ <;> rw [e] <;> rfl
  | start =>
    refine kept (onSlot_rq s fun n => ?_)
    unfold startSlot
    split
    · exact armTask_rq s n
    · rfl
  | stop => exact kept (onSlot_rq s (stopSlot_rq s))
  | trigger =>
    refine kept (onSlot_rq s fun n => ?_)
    unfold triggerSlot
    split
    · rfl
    · exact makeDue_rq s _ n
  | halt =>
    refine kept ?_
    show (haltEffect s).rq = s.rq
    unfold haltEffect haltRun
    repeat' split
    all_goals rfl
  | flush => exact h.flushQueue
  | discard =>
    show QueueLaws (discardEffect s).rq
    unfold discardEffect
    split
    · exact h
    · exact h.removeOldest
  | reset l => exact default_queueLaws.congr rfl rfl rfl
  | stofsWrite v =>
    refine kept ?_
    show (stofsEffect v s).rq = s.rq
    unfold stofsEffect
    split <;> rfl
  | rqdataRead =>
    show QueueLaws (rqdataEffect b s).rq
    unfold rqdataEffect
    split
    · exact h
    · exact h.advanceRead
  | lostcntRead => exact h.congr rfl rfl rfl
  | registerWrite a v =>
    show QueueLaws (registerWriteEffect a v s).rq
    unfold registerWriteEffect
    split <;> exact h.congr rfl rfl rfl
  | _ => exact h

/-! ### A delivery (R103, R108, R109) -/

/-- The record composed from a result has a known zone, and no miss part of 0 (R109). -/
theorem composeRecord_valid (t : Task) (tick : Word16) (r : ConvResult) :
    (composeRecord t tick (windowOutcome t r)).zone ≠ .unknown ∧
    (composeRecord t tick (windowOutcome t r)).miss ≠ some 0#8 := by
  refine ⟨evaluateZone_known _ _ _ _, ?_⟩
  simp only [composeRecord]
  split
  · simp
  · simpa using ‹_›

theorem QueueLaws.deliverResult (h : QueueLaws s.rq) (r : ConvResult) : QueueLaws (deliverResult r s).rq := by
  rw [deliverResult_eq, schedulerPart_frame]
  show QueueLaws (measured r s).rq
  cases hk : keepsRecord (s.task r.slot) (windowOutcome (s.task r.slot) r).fired with
  | true =>
    rw [(measured_kept r s hk).1]
    exact h.insertRecord (composeRecord_valid _ _ r)
  | false =>
    rw [(measured_not_kept r s hk).1]
    exact h

theorem QueueLaws.completeConversion (h : QueueLaws s.rq) (code : BitVec 12) (o : Bool) :
    QueueLaws (completeConversion code o s).rq := by
  unfold Machine.completeConversion
  split
  · split
    · exact h.deliverResult _
    · exact h
  · exact h

end Sys2Proof.Machine
end

section
/-! SUPPORT. The laws of the runtime parts (R29, R83, R105, R106), said of one task record, and what each change of a record
keeps of them. -/

namespace Sys2Proof.Machine

/-- The ranges of one task record's runtime fields. -/
structure TaskRanges (t : Task) : Prop where
  countdown : t.cfg.mode = .periodic → t.rt.state ≠ .stopped →
    1 ≤ t.rt.countdown.toNat ∧ t.rt.countdown.toNat ≤ max t.cfg.phase.toNat t.cfg.period.toNat
  noDecimation : t.cfg.recMode ≠ .everyN → t.rt.decCount = 0#4
  decimation : t.cfg.recMode = .everyN → t.rt.decCount.toNat < t.cfg.decimation
  lastN : t.rt.lastN.toNat ≤ 32760

variable {s : State} {t t' : Task}

theorem runtimeLaws_iff : RuntimeLaws s ↔ ∀ n, TaskRanges (s.task n) :=
  ⟨fun h n => ⟨h.countdown n, h.noDecimation n, h.decimation n, h.lastN n⟩,
    fun h => ⟨fun n => (h n).countdown, fun n => (h n).noDecimation, fun n => (h n).decimation, fun n => (h n).lastN⟩⟩

/-! ### One record -/

/-- A change that keeps the counts, and starts no STOPPED task, keeps the ranges. -/
theorem TaskRanges.congr (h : TaskRanges t) (hcfg : t'.cfg = t.cfg) (hcd : t'.rt.countdown = t.rt.countdown)
    (hdc : t'.rt.decCount = t.rt.decCount) (hn : t'.rt.lastN = t.rt.lastN)
    (hst : t'.rt.state ≠ .stopped → t.rt.state ≠ .stopped) : TaskRanges t' where
  countdown hm hs := by rw [hcfg, hcd]; exact h.countdown (hcfg ▸ hm) (hst hs)
  noDecimation hm := hdc ▸ h.noDecimation (hcfg ▸ hm)
  decimation hm := by rw [hdc, hcfg]; exact h.decimation (hcfg ▸ hm)
  lastN := hn ▸ h.lastN

/-- A countdown within its range may be loaded, whatever the task state then. -/
theorem TaskRanges.load (h : TaskRanges t) (st : TaskState) {w : Word16}
    (hw : t.cfg.mode = .periodic → 1 ≤ w.toNat ∧ w.toNat ≤ max t.cfg.phase.toNat t.cfg.period.toNat) :
    TaskRanges { t with rt := { t.rt with state := st, countdown := w } } :=
  ⟨fun hm _ => hw hm, h.noDecimation, h.decimation, h.lastN⟩

theorem toNat_pos_of_ne_zero {w : Word16} (h : w ≠ 0#16) : 1 ≤ w.toNat := by bv_omega

/-- The period of a valid PERIODIC configuration is in the range of its countdown (R4, R29). -/
theorem period_in_range {c : TaskConfig} (hv : ConfigValid c) (hm : c.mode = .periodic) :
    1 ≤ c.period.toNat ∧ c.period.toNat ≤ max c.phase.toNat c.period.toNat :=
  ⟨toNat_pos_of_ne_zero (hv.1 hm), le_max_right _ _⟩

/-- A countdown that does not end falls within its range (R29). -/
theorem TaskRanges.tick (h : TaskRanges t) (ha : countdownActive t = true) (h1 : t.rt.countdown ≠ 1#16) :
    TaskRanges { t with rt := { t.rt with countdown := t.rt.countdown - 1#16 } } := by
  refine h.load t.rt.state fun hm => ?_
  simp only [countdownActive, Bool.and_eq_true, beq_iff_eq, bne_iff_ne] at ha
  obtain ⟨hlo, hhi⟩ := h.countdown hm ha.2
  have hsub : (t.rt.countdown - 1#16).toNat = t.rt.countdown.toNat - 1 := by bv_omega
  have hne : t.rt.countdown.toNat ≠ 1 := by bv_omega
  omega

/-- A COMMIT that the lock check lets pass leaves the locked fields of a task that is not STOPPED as they are (R20). -/
theorem lockedEq_of_not_refused {c : TaskConfig} (hk : lockRefuses t c = false) (hs : t.rt.state ≠ .stopped) :
    lockedEq c t.cfg = true := by
  by_contra hne
  rw [(lockRefuses_iff t c).2 ⟨hs, hne⟩] at hk
  cases hk

/-- A COMMIT that the lock check lets pass keeps the ranges: the fields that the countdown rests on are locked while the
task is not STOPPED, and the decimation count starts again when its mode or N changes (R20, R21). -/
theorem TaskRanges.commit (h : TaskRanges t) {c : TaskConfig} (hk : lockRefuses t c = false) :
    TaskRanges (commitTask t c) := by
  have hdec : c.recMode = t.cfg.recMode ∧ c.decim = t.cfg.decim ∧ (commitTask t c).rt.decCount = t.rt.decCount ∨
      (commitTask t c).rt.decCount = 0#4 := by
    by_cases hsame : c.recMode = t.cfg.recMode ∧ c.decim = t.cfg.decim
    · exact .inl ⟨hsame.1, hsame.2, by simp [commitTask, hsame]⟩
    · exact .inr (by simp [commitTask, hsame])
  refine ⟨fun hm hs => ?_, fun hm => ?_, fun hm => ?_, h.lastN⟩
  · have hlock := lockedEq_of_not_refused hk hs
    simp only [lockedEq, decide_eq_true_eq] at hlock
    obtain ⟨hmode, _, _, _, _, _, hperiod, hphase⟩ := hlock
    show 1 ≤ t.rt.countdown.toNat ∧ t.rt.countdown.toNat ≤ max c.phase.toNat c.period.toNat
    rw [hphase, hperiod]
    exact h.countdown (hmode ▸ hm) hs
  · rcases hdec with ⟨hrec, _, e⟩ | e
    · exact e.trans (h.noDecimation (hrec ▸ hm))
    · exact e
  · rcases hdec with ⟨hrec, hdecim, e⟩ | e
    · have := h.decimation (hrec ▸ hm)
      rw [TaskConfig.decimation, ← hdecim, ← e] at this
      exact this
    · rw [e]
      exact Nat.succ_pos _

/-- The decimation count after an outcome is in its range (R104, R105). -/
theorem nextDecCount_range (h : TaskRanges t) : (t.cfg.recMode ≠ .everyN → nextDecCount t = 0#4) ∧
    (t.cfg.recMode = .everyN → (nextDecCount t).toNat < t.cfg.decimation) := by
  unfold nextDecCount
  cases hm : t.cfg.recMode with
  | always | onEvent | none => simpa using h.noDecimation (by simp [hm])
  | everyN =>
    have hlt := h.decimation hm
    have hN : t.cfg.decimation ≤ 16 := t.cfg.decim.isLt
    refine ⟨by simp, fun _ => ?_⟩
    dsimp only
    split
    · exact Nat.succ_pos _
    · have hsucc : (t.rt.decCount + 1#4).toNat = t.rt.decCount.toNat + 1 := by bv_omega
      omega

/-! ### The result of a conversion (R82, R83) -/

/-- The largest N of a resolution and a gain. -/
theorem fullScale_mul_multiplier (r : Resolution) (g : Gain) : r.fullScale * multiplier r g ≤ 32760 := by
  cases r <;> cases g <;> decide

/-- N of a code within its resolution is at most 32760 (R83). -/
theorem normalise_le {code : BitVec 12} {r : Resolution} (h : code.toNat ≤ r.fullScale) (g : Gain) :
    normalise code r g ≤ 32760 :=
  (Nat.mul_le_mul_right _ h).trans (fullScale_mul_multiplier r g)

/-- The record that the measuring blocks leave has its fields in range when the result's code is in its. -/
theorem TaskRanges.measured (h : TaskRanges t) {r : ConvResult} (hr : r.code.toNat ≤ r.res.fullScale) :
    TaskRanges (measuredTask r t) where
  countdown := h.countdown
  noDecimation := (nextDecCount_range h).1
  decimation := (nextDecCount_range h).2
  lastN := by
    have hn := normalise_le hr r.gain
    show (BitVec.ofNat 15 (normalise r.code r.res r.gain)).toNat ≤ 32760
    rw [BitVec.toNat_ofNat]
    omega

/-- The sum with one more sample stays within the codes' range (R61, R62). -/
theorem addSample_sum_le {c : Conversion} (h : c.sum ≤ c.samples * c.params.res.fullScale) (code : BitVec 12) (o : Bool) :
    (addSample c code o).sum ≤ (addSample c code o).samples * c.params.res.fullScale := by
  have := sampleCode_le c.params.res code o
  show c.sum + sampleCode c.params.res code o ≤ (c.samples + 1) * c.params.res.fullScale
  rw [Nat.add_one_mul]
  omega

/-- The result of a completed conversion has its code within the resolution (R63). -/
theorem completed_code_le {c : Conversion} (h : c.sum ≤ c.samples * c.params.res.fullScale)
    (hc : nextCompletes c = true) (code : BitVec 12) (o : Bool) :
    (formResult (addSample c code o)).code.toNat = (addSample c code o).sum / c.params.avg.count ∧
    (formResult (addSample c code o)).code.toNat ≤ c.params.res.fullScale := by
  have hsum := addSample_sum_le h code o
  have hcount : (addSample c code o).samples = c.params.avg.count := ((nextCompletes_iff c).1 hc).2
  rw [hcount] at hsum
  exact formResult_code (c := addSample c code o) hsum

/-! ### The operations of the Scheduler -/

theorem taskRanges_makeDue (h : ∀ n, TaskRanges (s.task n)) (kind : EntryKind) (n m : Slot) :
    TaskRanges ((makeDue kind n s).task m) := by
  by_cases hm : m = n
  · subst hm
    rcases makeDue_cases s kind m with ⟨ha, e⟩ | ⟨_, e⟩ | ⟨_, e⟩ <;> rw [e]
    · rw [enterTask_task, if_pos rfl]
      exact (h m).congr rfl rfl rfl rfl fun _ => by simp [ha]
    · rw [missTask_task, if_pos rfl]
      exact (h m).congr rfl rfl rfl rfl id
    · exact h m
  · rw [makeDue_task_other s hm]
    exact h m

/-- A change of one record that keeps its ranges keeps all ranges. -/
theorem taskRanges_modRuntime (h : ∀ n, TaskRanges (s.task n)) {n : Slot} {f : TaskRuntime → TaskRuntime}
    (hf : TaskRanges { s.task n with rt := f (s.task n).rt }) (m : Slot) : TaskRanges ((s.modRuntime n f).task m) := by
  rw [State.modRuntime_task]
  split
  · exact hf
  · exact h m

theorem taskRanges_countdownStep (h : ∀ n, TaskRanges (s.task n)) {n : Slot} (hv : ConfigValid (s.task n).cfg) (m : Slot) :
    TaskRanges ((countdownStep s n).task m) := by
  rcases countdownStep_cases s n with ⟨_, e⟩ | ⟨_, _, e⟩ | ⟨ha, h1, e⟩ <;> rw [e]
  · exact h m
  · exact taskRanges_makeDue (taskRanges_modRuntime h ((h n).load _ (period_in_range hv))) _ _ _
  · exact taskRanges_modRuntime h ((h n).tick ha h1) m

theorem taskRanges_armTask (h : ∀ n, TaskRanges (s.task n)) {n : Slot} (hv : ConfigValid (s.task n).cfg) (m : Slot) :
    TaskRanges ((armTask n s).task m) := by
  unfold armTask
  dsimp only
  split
  · exact taskRanges_makeDue (taskRanges_modRuntime h ((h n).load _ (period_in_range hv))) _ _ _
  · next hp =>
    refine taskRanges_modRuntime h ((h n).load _ fun hm => ?_) m
    exact ⟨toNat_pos_of_ne_zero fun h0 => hp ⟨hm, h0⟩, le_max_left _ _⟩

theorem taskRanges_stopSlot (h : ∀ n, TaskRanges (s.task n)) (n m : Slot) : TaskRanges ((stopSlot n s).task m) := by
  rw [stopSlot_task]
  split
  · exact (h n).congr rfl rfl rfl rfl fun hs => absurd rfl hs
  · exact h m

/-- At the defaults, every configuration kept, the ranges hold. -/
theorem taskRanges_default (c : TaskConfig) : TaskRanges { cfg := c, rt := defaultRuntime } where
  countdown _ hs := absurd rfl hs
  noDecimation _ := rfl
  decimation _ := Nat.succ_pos _
  lastN := Nat.zero_le _

theorem taskRanges_takeHead (h : ∀ n, TaskRanges (s.task n)) (he : EntryLaws s) (m : Slot) :
    TaskRanges ((takeHead s).task m) := by
  unfold takeHead
  split
  · next e rest _ _ hq =>
    have hst : (s.task e.slot).rt.state = .queued := (he.queued e.slot).1 ⟨e, by simp [hq], rfl⟩
    exact taskRanges_modRuntime (f := fun r => { r with state := .converting }) h
      ((h e.slot).congr rfl rfl rfl rfl fun _ => by simp [hst]) m
  · exact h m

/-- The Scheduler's part of a delivery by a task that is not STOPPED. -/
theorem taskRanges_schedulerPart (h : ∀ n, TaskRanges (s.task n)) {n : Slot} (hn : (s.task n).rt.state ≠ .stopped)
    (m : Slot) : TaskRanges ((schedulerPart n s).task m) := by
  have hu : ∀ k, TaskRanges ((leaveConverting n s).task k) :=
    taskRanges_modRuntime h ((h n).congr rfl rfl rfl rfl fun _ => hn)
  rw [schedulerPart, endHalt_task]
  rcases followLink_cases n (leaveConverting n s) with e | ⟨k, e⟩ <;> rw [e]
  · exact hu m
  · exact taskRanges_makeDue hu _ _ _

theorem taskRanges_deliverResult (h : ∀ n, TaskRanges (s.task n)) {r : ConvResult}
    (hn : (s.task r.slot).rt.state ≠ .stopped) (hr : r.code.toNat ≤ r.res.fullScale) (m : Slot) :
    TaskRanges ((deliverResult r s).task m) := by
  rw [deliverResult_eq]
  refine taskRanges_schedulerPart (fun k => ?_) (by rwa [measured_state]) m
  by_cases hk : k = r.slot
  · rw [hk, measured_task_self]
    exact (h r.slot).measured hr
  · rw [measured_task_other r s hk]
    exact h k

end Sys2Proof.Machine
end

section
/-! SUPPORT. The laws of the Conversion Unit (L10 and the ranges of R55 to R63), said of one conversion and its task's
record, and all the laws of the part along every step. -/

namespace Sys2Proof.Machine

/-- The laws of a conversion in progress, with the record of its task. -/
structure ConversionOf (t : Task) (c : Conversion) : Prop where
  params : c.params = paramsOf t.cfg
  early : c.phase ≠ .sampling → c.samples = 0 ∧ c.sum = 0 ∧ c.overSeen = false ∧ c.coarse = none
  ranging : c.phase = .ranging → c.params.policy = .auto
  fixed : ∀ g, c.params.policy.fixedGain = some g → c.workingGain = g ∧ c.coarse = none
  stored : c.params.policy = .auto → c.phase ≠ .sampling → c.workingGain = t.rt.gain
  samples : c.samples < c.params.avg.count
  sum : c.sum ≤ c.samples * c.params.res.fullScale

variable {s u : State}

theorem conversionLaws_iff : ConversionLaws s ↔ ∀ c, s.conv = some c → ConversionOf (s.task c.slot) c :=
  ⟨fun h c hc => ⟨h.params c hc, h.early c hc, h.ranging c hc, h.fixed c hc, h.stored c hc, h.samples c hc, h.sum c hc⟩,
    fun h => ⟨fun c hc => (h c hc).params, fun c hc => (h c hc).early, fun c hc => (h c hc).ranging,
      fun c hc => (h c hc).fixed, fun c hc => (h c hc).stored, fun c hc => (h c hc).samples, fun c hc => (h c hc).sum⟩⟩

/-! ### One conversion -/

/-- The laws speak of the five copied fields and of the stored gain alone. -/
theorem ConversionOf.congr {t t' : Task} {c : Conversion} (h : ConversionOf t c) (hp : paramsOf t'.cfg = paramsOf t.cfg)
    (hg : t'.rt.gain = t.rt.gain) : ConversionOf t' c :=
  { h with params := hp ▸ h.params, stored := hg ▸ h.stored }

/-- The averaging count is at least 1 (R2). -/
theorem Averaging.count_pos (a : Averaging) : 0 < a.count := by cases a <;> decide

/-- AUTO is the policy without a gain of its own (R75). -/
theorem fixedGain_eq_none_iff (p : GainPolicy) : p.fixedGain = none ↔ p = .auto := by cases p <;> decide

/-- A conversion obeys the laws straight after the take (R56, R57). -/
theorem conversionOf_start (n : Slot) (t : Task) : ConversionOf t (startConversion n t) where
  params := rfl
  early _ := ⟨rfl, rfl, rfl, rfl⟩
  ranging := nofun
  fixed g hg := ⟨by rw [startConversion, show t.cfg.policy.fixedGain = some g from hg]; rfl, rfl⟩
  stored ha _ := by
    rw [startConversion, (fixedGain_eq_none_iff t.cfg.policy).2 ha]
    rfl
  samples := t.cfg.avg.count_pos
  sum := Nat.zero_le _

/-- The end of SETTLING leads to RANGING under AUTO alone (R58). -/
theorem ConversionOf.settle {t : Task} {c : Conversion} (h : ConversionOf t c) (hp : c.phase = .settling) :
    ConversionOf t { c with phase := if c.params.policy = .auto then .ranging else .sampling } :=
  { h with
    early := fun _ => h.early (by simp [hp])
    ranging := fun hr => by
      by_contra ha
      simp only [ha, if_false] at hr
      cases hr
    stored := fun ha _ => h.stored ha (by simp [hp]) }

/-- The end of RANGING sets the working gain, which no fixed policy holds (R60). -/
theorem ConversionOf.range {t : Task} {c : Conversion} (h : ConversionOf t c) (hp : c.phase = .ranging) (v : BitVec 6)
    (g : Gain) : ConversionOf t { c with phase := .sampling, coarse := some v, workingGain := g } :=
  { h with
    early := fun hs => absurd rfl hs
    ranging := nofun
    fixed := fun g hg => by
      rw [(fixedGain_eq_none_iff _).2 (h.ranging hp)] at hg
      cases hg
    stored := fun _ hs => absurd rfl hs }

/-- A sample that is not the A-th leaves samples to take (R61, R62). -/
theorem ConversionOf.sample {t : Task} {c : Conversion} (h : ConversionOf t c) (hm : moreAfterNext c = true)
    (code : BitVec 12) (o : Bool) : ConversionOf t (addSample c code o) := by
  obtain ⟨hp, hlt⟩ := (moreAfterNext_iff c).1 hm
  exact { h with
    early := fun hs => absurd hp hs
    stored := fun _ hs => absurd hp hs
    samples := hlt
    sum := addSample_sum_le h.sum code o }

/-! ### The conversion under the operations -/

theorem conversionLaws_of_idle (h : s.conv = none) : ConversionLaws s :=
  conversionLaws_iff.2 fun c hc => by simp [h] at hc

/-- What keeps the conversion, and of its task's record the copied fields and the stored gain, keeps the laws. -/
theorem ConversionLaws.congr (h : ConversionLaws s) (hc : u.conv = s.conv)
    (hp : ∀ c, s.conv = some c → paramsOf (u.task c.slot).cfg = paramsOf (s.task c.slot).cfg)
    (hg : ∀ n, (u.task n).rt.gain = (s.task n).rt.gain) : ConversionLaws u :=
  conversionLaws_iff.2 fun c e =>
    (conversionLaws_iff.1 h c (hc ▸ e)).congr (hp c (hc ▸ e)) (hg c.slot)

theorem ConversionLaws.sameConfig (h : ConversionLaws s) (hc : u.conv = s.conv) (hcfg : SameConfig s u)
    (hg : ∀ n, (u.task n).rt.gain = (s.task n).rt.gain) : ConversionLaws u :=
  h.congr hc (fun c _ => congrArg paramsOf (hcfg c.slot)) hg

theorem ConversionLaws.setConv (h : ConversionLaws s) {c d : Conversion} (hc : s.conv = some c) (hd : d.slot = c.slot)
    (hlaw : ConversionOf (s.task c.slot) c → ConversionOf (s.task c.slot) d) : ConversionLaws (s.setConv (some d)) :=
  conversionLaws_iff.2 fun e he => by
    obtain rfl : d = e := by simpa using he
    rw [State.setConv_task, hd]
    exact hlaw (conversionLaws_iff.1 h c hc)

theorem makeDue_gain (s : State) (kind : EntryKind) (n m : Slot) :
    ((makeDue kind n s).task m).rt.gain = (s.task m).rt.gain := by
  by_cases hm : m = n
  · subst hm
    rcases makeDue_cases s kind m with ⟨_, e⟩ | ⟨_, e⟩ | ⟨_, e⟩ <;> rw [e]
    · simp [enterTask_task]
    · simp [missTask_task]
  · rw [makeDue_task_other s hm]

theorem modRuntime_gain (s : State) (n m : Slot) {f : TaskRuntime → TaskRuntime}
    (hf : (f (s.task n).rt).gain = (s.task n).rt.gain) : ((s.modRuntime n f).task m).rt.gain = (s.task m).rt.gain := by
  rw [State.modRuntime_task]
  split
  · next hm => rw [hm]; exact hf
  · rfl

theorem ConversionLaws.makeDue (h : ConversionLaws s) (kind : EntryKind) (n : Slot) :
    ConversionLaws (makeDue kind n s) :=
  h.sameConfig (makeDue_conv s kind n) (sameConfig_makeDue s kind n) (makeDue_gain s kind n)

theorem ConversionLaws.modRuntime (h : ConversionLaws s) (n : Slot) {f : TaskRuntime → TaskRuntime}
    (hf : (f (s.task n).rt).gain = (s.task n).rt.gain) : ConversionLaws (s.modRuntime n f) :=
  h.sameConfig rfl (sameConfig_modRuntime s n f) fun m => modRuntime_gain s n m hf

theorem ConversionLaws.countdownStep (h : ConversionLaws s) (n : Slot) : ConversionLaws (countdownStep s n) := by
  rcases countdownStep_cases s n with ⟨_, e⟩ | ⟨_, _, e⟩ | ⟨_, _, e⟩ <;> rw [e]
  · exact h
  · exact (h.modRuntime n rfl).makeDue .normal n
  · exact h.modRuntime n rfl

theorem ConversionLaws.armTask (h : ConversionLaws s) (n : Slot) : ConversionLaws (armTask n s) := by
  unfold Machine.armTask
  dsimp only
  split
  · exact (h.modRuntime n rfl).makeDue .normal n
  · exact h.modRuntime n rfl

theorem ConversionLaws.stopSlot (h : ConversionLaws s) (n : Slot) : ConversionLaws (stopSlot n s) := by
  have keep (hc : (Machine.stopSlot n s).conv = s.conv) : ConversionLaws (Machine.stopSlot n s) :=
    h.sameConfig hc (sameConfig_stopSlot s n) fun m => by
      rw [stopSlot_task]
      split
      · next hm => rw [hm]
      · rfl
  cases hn : (s.task n).rt.state with
  | stopped | armed => exact keep (by rw [stopSlot_idle (by simp [hn])])
  | queued => exact keep (by rw [stopSlot_queued hn])
  | converting => exact conversionLaws_of_idle (by rw [stopSlot_converting hn])

theorem haltEffect_frame (s : State) : haltEffect s = { s with
    runState := (haltEffect s).runState
    sysLatch := (haltEffect s).sysLatch
    cmdst := .ok } := by
  unfold haltEffect haltRun
  repeat' split
  all_goals rfl

/-- A COMMIT that the lock check lets pass keeps the copied fields of the current task, which is CONVERTING (R20, L10). -/
theorem ConversionLaws.commit (h : ConversionLaws s) (hs : SchedulerLaws s) {n : Slot} {c : TaskConfig}
    (hk : lockRefuses (s.task n) c = false) : ConversionLaws (acceptCmd (s.setTask n (commitTask (s.task n) c))) := by
  refine h.congr rfl (fun d hd => ?_) fun m => ?_
  · rw [acceptCmd_task, State.setTask_task]
    split
    · next hm =>
      have hconv : (s.task n).rt.state = .converting := (hs.converting n).2 (by simp [hd, hm])
      have hlock := lockedEq_of_not_refused hk (by simp [hconv])
      simp only [lockedEq, decide_eq_true_eq] at hlock
      obtain ⟨_, hchannel, hres, havg, hpolicy, hsettle, _, _⟩ := hlock
      rw [hm]
      simp only [commitTask, paramsOf, hchannel, hres, havg, hpolicy, hsettle]
    · rfl
  · rw [acceptCmd_task, State.setTask_task]
    split
    · next hm => rw [hm]; rfl
    · rfl

theorem ConversionLaws.takeHead (h : ConversionLaws s) : ConversionLaws (takeHead s) := by
  unfold Machine.takeHead
  split
  · next e rest _ _ _ =>
    refine conversionLaws_iff.2 fun c hc => ?_
    obtain rfl : startConversion e.slot (s.task e.slot) = c := by simpa using hc
    exact (conversionOf_start e.slot (s.task e.slot)).congr
      (congrArg paramsOf (State.setTaskState_cfg s e.slot e.slot .converting))
      (modRuntime_gain s e.slot e.slot (f := fun r => { r with state := .converting }) rfl)
  · exact h

theorem ConversionLaws.endSettling (h : ConversionLaws s) : ConversionLaws (endSettling s) := by
  unfold Machine.endSettling
  split
  · next c hc =>
    split
    · next hp => exact h.setConv hc rfl fun hl => hl.settle hp
    · exact h
  · exact h

theorem ConversionLaws.endRanging (h : ConversionLaws s) (v : BitVec 6) : ConversionLaws (endRanging v s) := by
  unfold Machine.endRanging
  split
  · next c hc =>
    split
    · next hp => exact h.setConv hc rfl fun hl => hl.range hp v _
    · exact h
  · exact h

theorem ConversionLaws.takeSample (h : ConversionLaws s) (code : BitVec 12) (o : Bool) :
    ConversionLaws (takeSample code o s) := by
  unfold Machine.takeSample
  split
  · next c hc =>
    split
    · next hm => exact h.setConv hc rfl fun hl => hl.sample hm code o
    · exact h
  · exact h

theorem deliverResult_conv (r : ConvResult) (s : State) : (deliverResult r s).conv = none := by
  rw [deliverResult_eq, schedulerPart_frame]
  exact measured_conv r s

/-! ### All the laws together -/

theorem PartLaws.same (h : PartLaws s) (hp : SamePart s u) : PartLaws u where
  table := h.table.of_sameConfig (.of_tasks hp.tasks)
  scheduler := h.scheduler.sameWork hp.toSameWork
  conversion := h.conversion.sameConfig hp.conv (.of_tasks hp.tasks) fun n => by rw [hp.task]
  runtime := runtimeLaws_iff.2 fun n => by rw [hp.task]; exact runtimeLaws_iff.1 h.runtime n
  queue := hp.rq ▸ h.queue

theorem PartLaws.makeDue (h : PartLaws s) (kind : EntryKind) (n : Slot) : PartLaws (makeDue kind n s) where
  table := h.table.of_sameConfig (sameConfig_makeDue s kind n)
  scheduler := h.scheduler.makeDue kind n
  conversion := h.conversion.makeDue kind n
  runtime := runtimeLaws_iff.2 (taskRanges_makeDue (runtimeLaws_iff.1 h.runtime) kind n)
  queue := makeDue_rq s kind n ▸ h.queue

theorem PartLaws.countdownStep (h : PartLaws s) (n : Slot) : PartLaws (countdownStep s n) where
  table := h.table.of_sameConfig (countdownStep_cfg s n)
  scheduler := h.scheduler.countdownStep n
  conversion := h.conversion.countdownStep n
  runtime := runtimeLaws_iff.2 (taskRanges_countdownStep (runtimeLaws_iff.1 h.runtime) (h.table.valid n))
  queue := by rw [countdownStep_frame]; exact h.queue

/-- The laws of a conversion and of the runtime parts under the change of a bus access; those of the Scheduler and the Task
Table tie the current task and its countdown to what START and COMMIT do. -/
theorem PartLaws.workChange (h : PartLaws s) (hw : WorkChange s u) :
    ConversionLaws u ∧ ∀ m, TaskRanges (u.task m) := by
  have hr := runtimeLaws_iff.1 h.runtime
  cases hw with
  | same hw =>
    exact ⟨h.conversion.sameConfig hw.conv (.of_tasks hw.tasks) fun n => by rw [hw.task],
      fun m => by rw [hw.task]; exact hr m⟩
  | commit n c hk =>
    refine ⟨h.conversion.commit h.scheduler hk, fun m => ?_⟩
    rw [acceptCmd_task, State.setTask_task]
    split
    · exact (hr n).commit hk
    · exact hr m
  | start n hn =>
    exact ⟨(h.conversion.armTask n).sameConfig rfl (.of_tasks rfl) fun _ => rfl, taskRanges_armTask hr (h.table.valid n)⟩
  | stop n => exact ⟨h.conversion.stopSlot n, taskRanges_stopSlot hr n⟩
  | due kind n =>
    exact ⟨(h.conversion.makeDue kind n).sameConfig rfl (.of_tasks rfl) fun _ => rfl, taskRanges_makeDue hr kind n⟩
  | halt =>
    rw [haltEffect_frame]
    exact ⟨h.conversion.sameConfig rfl (.of_tasks rfl) fun _ => rfl, hr⟩
  | resume => exact ⟨h.conversion.sameConfig rfl (.of_tasks rfl) fun _ => rfl, hr⟩
  | reset l =>
    refine ⟨conversionLaws_of_idle rfl, fun m => ?_⟩
    rw [resetEffect_task]
    exact taskRanges_default _

theorem PartLaws.accessEffect (h : PartLaws s) (i : Instr) (b : Byte) : PartLaws (accessEffect i b s) := by
  have hw := workChange_accessEffect s i b
  obtain ⟨hconv, hrun⟩ := h.workChange hw
  exact ⟨h.table.after_access i b, h.scheduler.workChange hw, hconv, runtimeLaws_iff.2 hrun, h.queue.accessEffect i b⟩

theorem PartLaws.takeHead (h : PartLaws s) : PartLaws (takeHead s) where
  table := h.table.of_sameConfig (sameConfig_takeHead s)
  scheduler := h.scheduler.takeHead
  conversion := h.conversion.takeHead
  runtime := runtimeLaws_iff.2 (taskRanges_takeHead (runtimeLaws_iff.1 h.runtime) h.scheduler.entries)
  queue := by
    unfold Machine.takeHead
    split <;> exact h.queue

/-- An event that changes the conversion in progress alone keeps all the laws when it keeps those of the conversion. -/
theorem PartLaws.conversionEvent (h : PartLaws s) (e : u = s.setConv u.conv) (hs : SchedulerLaws u)
    (hc : ConversionLaws u) : PartLaws u where
  table := h.table.of_sameConfig (.of_tasks (by rw [e]; rfl))
  scheduler := hs
  conversion := hc
  runtime := runtimeLaws_iff.2 fun n => by rw [e]; exact runtimeLaws_iff.1 h.runtime n
  queue := by rw [e]; exact h.queue

theorem endSettling_setConv (s : State) : endSettling s = s.setConv (endSettling s).conv := by
  unfold endSettling
  repeat' split
  all_goals rfl

theorem endRanging_setConv (v : BitVec 6) (s : State) : endRanging v s = s.setConv (endRanging v s).conv := by
  unfold endRanging
  repeat' split
  all_goals rfl

theorem takeSample_setConv (code : BitVec 12) (o : Bool) (s : State) :
    takeSample code o s = s.setConv (takeSample code o s).conv := by
  unfold takeSample
  repeat' split
  all_goals rfl

/-- The A-th sample completes the conversion of a task that is CONVERTING, with a code within its resolution. -/
theorem PartLaws.completeConversion (h : PartLaws s) (code : BitVec 12) (o : Bool) :
    PartLaws (completeConversion code o s) := by
  refine ⟨h.table.of_sameConfig (sameConfig_completeConversion s code o), h.scheduler.completeConversion code o, ?_, ?_,
    h.queue.completeConversion code o⟩
  · unfold Machine.completeConversion
    split
    · split
      · exact conversionLaws_of_idle (deliverResult_conv _ s)
      · exact h.conversion
    · exact h.conversion
  · have hr := runtimeLaws_iff.1 h.runtime
    unfold Machine.completeConversion
    split
    · next c hc =>
      split
      · next hn =>
        have hconv : (s.task c.slot).rt.state = .converting := (h.scheduler.converting c.slot).2 (by simp [hc])
        exact runtimeLaws_iff.2 (taskRanges_deliverResult (r := formResult (addSample c code o)) hr
          (by show (s.task c.slot).rt.state ≠ .stopped; simp [hconv])
          (completed_code_le (h.conversion.sum c hc) hn code o).2)
      · exact h.runtime
    · exact h.runtime

theorem partLaws_stepKept : StepKept PartLaws where
  same h hp := h.same hp
  reset := resetObeysPartLaws
  access i b _ h := h.accessEffect i b
  due n _ h := h.makeDue .normal n
  countdown n _ h := h.countdownStep n
  take _ h := h.takeHead
  settling s h := h.conversionEvent (endSettling_setConv s) h.scheduler.endSettling h.conversion.endSettling
  ranging v s h := h.conversionEvent (endRanging_setConv v s) (h.scheduler.endRanging v) (h.conversion.endRanging v)
  sample code o s h :=
    h.conversionEvent (takeSample_setConv code o s) (h.scheduler.takeSample code o) (h.conversion.takeSample code o)
  delivery code o _ h := h.completeConversion code o

/-- Settles O58: the laws of the Task Table, the Scheduler and the Result Queue hold each by itself, and with them the
conversion keeps its locked parameters and the runtime parts their ranges. -/
theorem stepKeepsPartLaws : Obligations.StepKeepsPartLaws := fun _ _ h e => partLaws_stepKept.step h e

end Sys2Proof.Machine
end

section
/-! SUPPORT. The statements about resets, pulses, starting, stopping and due causes, the run state and the take (R33, R34, R39,
R42, R44, R45, R49, R51, R54, R161). -/

namespace Sys2Proof.Machine

variable {s : State} {n : Slot}

/-! ### Pulses and resets (R34, R54, R138, R161) -/

/-- Settles O8. -/
theorem narrowPulsesAreWholeOrNothing : Obligations.NarrowPulsesAreWholeOrNothing := by
  refine ⟨fun s l => rfl, fun s l hh => ?_, fun s hr => ?_⟩
  · have hexec : exec (.powerOnReset .marginal l) s = .next (resPulse .marginal l s) := rfl
    dsimp only
    rw [hexec, resPulse_marginal l s hh, exec_powerOnReset_full]
    split
    · exact .inr rfl
    · exact .inl rfl
  · have hr1 : Ready { s with freeCount := s.freeCount + 1 } := hr
    dsimp only
    rw [exec_trigEdge_ready hr, exec_trigEdge_ready hr1]
    simp only [edgeEvent]
    split
    · exact .inr rfl
    · exact .inl rfl

/-- After RESET no latch is left to pull IRQ# low (R146, R149). -/
theorem irqLow_resetEffect (s : State) (l : Level) : irqLow (resetEffect l s) = false := by
  have hsys : noSysLatches.bits = 0#7 := rfl
  simp [irqLow, resetEffect, hsys]

/-- After RESET DSTAT reads as after a power-on reset (R54, R138, R162). -/
theorem dstat_resetEffect (s : State) (l : Level) : dstat (resetEffect l s) = 0x88#8 := by
  show RunState.halted.enc ++ BitVec.ofBool false ++ BitVec.ofBool false ++ BitVec.ofBool true
    ++ BitVec.ofBool (0#8 != 0#8) ++ 0#2 = 0x88#8
  decide

/-- Settles O9. -/
theorem softResetKeepsConfiguration : Obligations.SoftResetKeepsConfiguration := by
  intro s l hr
  refine ⟨_, exec_reset_ready hr l, fun n => ?_, rfl, irqLow_resetEffect _ l, dstat_resetEffect _ l, rfl⟩
  rw [resetEffect_task]
  exact ⟨rfl, rfl⟩

/-! ### The slot commands on the slot that CARG names -/

theorem exec_start_slot (hr : Ready s) (hn : s.carg.toNat = n.val) :
    exec .start s = .next (startSlot n (s.setDataOut none)) :=
  (exec_start_ready hr).trans (congrArg _ (onSlot_of_eq (s.setDataOut none) startSlot hn))

theorem exec_stop_slot (hr : Ready s) (hn : s.carg.toNat = n.val) :
    exec .stop s = .next (stopSlot n (s.setDataOut none)) :=
  (exec_stop_ready hr).trans (congrArg _ (onSlot_of_eq (s.setDataOut none) stopSlot hn))

theorem exec_trigger_slot (hr : Ready s) (hn : s.carg.toNat = n.val) :
    exec .trigger s = .next (triggerSlot n (s.setDataOut none)) :=
  (exec_trigger_ready hr).trans (congrArg _ (onSlot_of_eq (s.setDataOut none) triggerSlot hn))

/-! ### START (R44) -/

theorem startSlot_busy (h : (s.task n).rt.state ≠ .stopped) : startSlot n s = refuseCmd .state s := by
  simp [startSlot, h]

theorem startSlot_stopped (h : (s.task n).rt.state = .stopped) : startSlot n s = acceptCmd (armTask n s) := by
  simp [startSlot, h]

/-- A task that waits for its cause: its countdown is loaded from its phase. -/
theorem armTask_waiting (h : ¬ ((s.task n).cfg.mode = .periodic ∧ (s.task n).cfg.phase = 0#16)) :
    armTask n s = s.modRuntime n fun r => { r with state := .armed, countdown := (s.task n).cfg.phase } := by
  simp only [armTask, h, if_false]

/-- A PERIODIC task with phase 0 is due at once, from ARMED with its countdown loaded from its period. -/
theorem armTask_due (hm : (s.task n).cfg.mode = .periodic) (hp : (s.task n).cfg.phase = 0#16) :
    armTask n s =
      enterTask .normal n (s.modRuntime n fun r => { r with state := .armed, countdown := (s.task n).cfg.period }) := by
  simp only [armTask, hm, hp, and_self, if_true]
  exact makeDue_armed _ (by simp)

theorem enterTask_task_same (s : State) (kind : EntryKind) (n : Slot) :
    (enterTask kind n s).task n = { s.task n with rt := { (s.task n).rt with state := .queued } } := by
  simp [enterTask_task]

theorem enterTask_task_other (kind : EntryKind) {m : Slot} (hm : m ≠ n) : (enterTask kind n s).task m = s.task m := by
  simp [enterTask_task, hm]

/-- An entry changes its task's record and the Run Queue, and nothing else. -/
theorem enterTask_frame (s : State) (kind : EntryKind) (n : Slot) : enterTask kind n s = { s with
    tasks := (enterTask kind n s).tasks
    runQueue := placeEntry kind n (s.task n).cfg.priority s.runQueue } := rfl

/-- Settles O27. -/
theorem startArmsOrQueues : Obligations.StartArmsOrQueues := by
  intro s n hr hn
  refine ⟨fun hbusy => ?_, fun hst hwait => ?_, fun hst hm hp => ?_⟩ <;> rw [exec_start_slot hr hn]
  · rw [startSlot_busy (s := s.setDataOut none) hbusy]
    rfl
  · refine ⟨_, rfl, ?_, fun m hm => ?_, ?_⟩ <;>
      rw [startSlot_stopped (s := s.setDataOut none) hst, armTask_waiting (s := s.setDataOut none) hwait]
    · rfl
    · rw [acceptCmd_task, State.modRuntime_task_other _ hm]
      rfl
    · rw [acceptCmd_task, State.modRuntime_task_same]
      rfl
  · refine ⟨_, rfl, ?_, fun m hmn => ?_, ?_⟩ <;>
      rw [startSlot_stopped (s := s.setDataOut none) hst, armTask_due (s := s.setDataOut none) hm hp]
    · rw [enterTask_frame, State.modRuntime_cfg]
      rfl
    · rw [acceptCmd_task, enterTask_task_other .normal hmn, State.modRuntime_task_other _ hmn]
      rfl
    · rw [acceptCmd_task, enterTask_task_same, State.modRuntime_task_same]
      rfl

/-! ### STOP (R45) -/

theorem removeEntry_eq_filter (n : Slot) (q : List RunEntry) : removeEntry n q = q.filter fun e => e.slot ≠ n := by
  unfold removeEntry
  congr 1
  funext e
  by_cases h : e.slot = n <;> simp [h]

/-- Settles O28. -/
theorem stopEndsTheTask : Obligations.StopEndsTheTask := by
  intro s n hr hn
  refine ⟨_, exec_stop_slot hr hn, fun m hm => ?_, ?_, fun hst => ?_, fun hst => ?_, fun hst => ?_⟩
  · rw [stopSlot_task, if_neg hm]
    rfl
  · rw [stopSlot_task, if_pos rfl]
    rfl
  · rw [stopSlot_idle (s := s.setDataOut none) hst]
    rfl
  · rw [stopSlot_queued (s := s.setDataOut none) hst, removeEntry_eq_filter]
    rfl
  · rw [stopSlot_converting (s := s.setDataOut none) hst]
    rfl

/-! ### TRIGGER (R33) -/

theorem triggerSlot_stopped (h : (s.task n).rt.state = .stopped) : triggerSlot n s = refuseCmd .state s := by
  simp [triggerSlot, h]

theorem triggerSlot_due (h : (s.task n).rt.state ≠ .stopped) :
    triggerSlot n s = acceptCmd (makeDue (triggerKind (s.task n).cfg) n s) := by
  simp [triggerSlot, h]

/-- TRIGGER enters a CHAINED task at the head and any other by its priority (R33, R39, R40). -/
theorem placeEntry_triggerKind (c : TaskConfig) (n : Slot) (p : Fin 4) (q : List RunEntry) :
    placeEntry (triggerKind c) n p q =
      if c.mode = .chained then { slot := n, rank := 4 } :: q else placeNormal { slot := n, rank := p.castSucc } q := by
  unfold triggerKind
  split <;> rfl

/-- The saturating count with its bound written out (R32). -/
theorem satInc_eq (b : Byte) : satInc b = if b = 255#8 then 255#8 else b + 1#8 := by
  unfold satInc
  split <;> simp_all

theorem missTask_task_same (s : State) (n : Slot) : (missTask n s).task n =
    { s.task n with rt := { (s.task n).rt with missCount := satInc (s.task n).rt.missCount } } := by
  simp [missTask_task]

theorem missTask_task_other {m : Slot} (hm : m ≠ n) : (missTask n s).task m = s.task m := by
  simp [missTask_task, hm]

/-- Settles O29. -/
theorem triggerMakesTheTaskDue : Obligations.TriggerMakesTheTaskDue := by
  refine ⟨fun s hr hge => ?_, fun s n hr hn => ⟨fun hst => ?_, fun hst => ?_, fun hst => ?_⟩⟩
  · rw [exec_trigger_ready hr]
    exact congrArg _ (onSlot_of_ge (s.setDataOut none) triggerSlot hge)
  · rw [exec_trigger_slot hr hn, triggerSlot_stopped (s := s.setDataOut none) hst]
    rfl
  · have hdue : triggerSlot n (s.setDataOut none) =
        acceptCmd (enterTask (triggerKind (s.task n).cfg) n (s.setDataOut none)) := by
      rw [triggerSlot_due (s := s.setDataOut none) (by simp [hst]), makeDue_armed (s.setDataOut none) (by simpa using hst)]
      rfl
    refine ⟨_, exec_trigger_slot hr hn, ?_, fun m hm => ?_, ?_⟩ <;> rw [hdue]
    · rw [enterTask_frame, placeEntry_triggerKind]
      rfl
    · rw [acceptCmd_task, enterTask_task_other _ hm]
      rfl
    · rw [acceptCmd_task, enterTask_task_same]
      rfl
  · have hdue : triggerSlot n (s.setDataOut none) = acceptCmd (missTask n (s.setDataOut none)) := by
      rw [triggerSlot_due (s := s.setDataOut none) (by rcases hst with h | h <;> simp [h]),
        makeDue_busy (s.setDataOut none) (by simpa using hst)]
    refine ⟨_, exec_trigger_slot hr hn, ?_, fun m hm => ?_, ?_⟩ <;> rw [hdue]
    · rfl
    · rw [acceptCmd_task, missTask_task_other hm]
      rfl
    · rw [acceptCmd_task, missTask_task_same, satInc_eq]
      rfl

/-! ### Placement (R39) -/

/-- A placement splits a Run Queue whose ranks never rise at the place of the new entry. -/
theorem placeNormal_split (e : RunEntry) {q : List RunEntry} (h : q.Pairwise fun a b => b.rank ≤ a.rank) :
    ∃ ahead behind, q = ahead ++ behind ∧ placeNormal e q = ahead ++ e :: behind ∧
      (∀ x ∈ ahead, e.rank ≤ x.rank) ∧ (∀ x ∈ behind, x.rank < e.rank) := by
  induction q with
  | nil => exact ⟨[], [], rfl, rfl, by simp, by simp⟩
  | cons y ys ih =>
    obtain ⟨hy, hys⟩ := List.pairwise_cons.1 h
    by_cases hle : e.rank ≤ y.rank
    · obtain ⟨ahead, behind, rfl, hp, ha, hb⟩ := ih hys
      refine ⟨y :: ahead, behind, rfl, ?_, ?_, hb⟩
      · simp only [placeNormal, hle, if_true, hp, List.cons_append]
      · exact List.forall_mem_cons.2 ⟨hle, ha⟩
    · refine ⟨[], y :: ys, rfl, ?_, by simp, ?_⟩
      · simp only [placeNormal, hle, if_false, List.nil_append]
      · have hlt : y.rank < e.rank := not_le.1 hle
        exact List.forall_mem_cons.2 ⟨hlt, fun x hx => (hy x hx).trans_lt hlt⟩

theorem commitEffect_runQueue (s : State) : (commitEffect s).runQueue = s.runQueue := by
  rcases onSlot_cases s commitSlot with ⟨_, e⟩ | ⟨n, _, e⟩ <;> rw [commitEffect, e]
  · rfl
  · rcases commitSlot_cases n s with ⟨_, _, _, _, _, ec⟩ | ⟨_, ec, _⟩ <;> rw [ec] <;> rfl

/-- Settles O30. -/
theorem normalEntryPlacement : Obligations.NormalEntryPlacement := by
  refine ⟨fun e q h => placeNormal_split e h, fun _ => rfl, fun s n h => makeDue_runQueue_armed h, fun s t h => ?_⟩
  have hexec : exec .commit s = .next (takeWrite .commit commitEffect s) := rfl
  rw [hexec] at h
  cases h
  rcases takeWrite_cases s .commit commitEffect with e | ⟨w, e⟩ <;> rw [e]
  exact commitEffect_runQueue _

/-! ### The run state and the take (R42, R49, R51, R56, R57) -/

theorem haltEffect_idle (hrun : s.runState = .running) (hc : s.conv = none) : haltEffect s =
    { s with runState := .halted, sysLatch := { s.sysLatch with halted := true }, cmdst := .ok } := by
  rw [haltEffect, haltRun, if_pos hrun, if_neg (by simp [hc])]
  rfl

theorem haltEffect_busy (hrun : s.runState = .running) (hc : s.conv ≠ none) : haltEffect s =
    { s with runState := .halting, cmdst := .ok } := by
  rw [haltEffect, haltRun, if_pos hrun, if_pos (Option.isSome_iff_ne_none.2 hc)]
  rfl

theorem haltEffect_again (hrun : s.runState ≠ .running) : haltEffect s = { s with cmdst := .ok } := by
  rw [haltEffect, haltRun, if_neg hrun]
  rfl

/-- Settles O31. -/
theorem haltAndResumeSetTheRunState : Obligations.HaltAndResumeSetTheRunState := by
  intro s hr
  rw [exec_halt_ready hr, exec_resume_ready hr]
  exact ⟨fun hrun hc => congrArg _ (haltEffect_idle (s := s.setDataOut none) hrun hc),
    fun hrun hc => congrArg _ (haltEffect_busy (s := s.setDataOut none) hrun hc),
    fun hrun => congrArg _ (haltEffect_again (s := s.setDataOut none) hrun), rfl⟩

/-- The working gain straight after a take (R57, R75). -/
theorem fixedGain_getD (p : GainPolicy) (g : Gain) : p.fixedGain.getD g =
    match p with
    | .fix1 => .x1
    | .fix2 => .x2
    | .fix4 => .x4
    | .fix8 => .x8
    | .auto => g := by
  cases p <;> rfl

/-- Settles O35. -/
theorem takeStartsAConversion : Obligations.TakeStartsAConversion := by
  intro s hr
  refine ⟨fun e rest hc hrun hq => ?_, fun hno => ?_⟩
  · refine ⟨_, exec_take_ready hr, ?_⟩
    rw [takeHead_taken hc hrun hq]
    refine ⟨?_, fun m hm => ?_, ?_, ?_, rfl⟩
    · rw [startConversion, fixedGain_getD]
      rfl
    · rw [State.setConv_task, State.setRunQueue_task, State.setTaskState_task, if_neg hm]
    · rw [State.setConv_task, State.setRunQueue_task, State.setTaskState_task, if_pos rfl]
    · show (BitVec.ofNat 8 e.slot.val).toNat = e.slot.val
      rw [BitVec.toNat_ofNat]
      omega
  · rw [exec_take_ready hr, takeHead_not hno]

end Sys2Proof.Machine
end

section
/-! SUPPORT. A pass over the slots in ascending order, as the Tick Timer and an edge on TRIG make it (R29, R35, R37): what each
slot's part does is read from that slot's record alone, so the whole pass is said slot by slot. -/

namespace Sys2Proof.Machine

/-! ### One slot's part -/

/-- One slot's part of a pass: the record it leaves, whether it enters the task, whether it counts a miss. -/
structure Visit where
  task : Task → Task
  enters : Task → Bool
  misses : Task → Bool

/-- The normal entry of slot n with the priority its record holds (R39). -/
def normalEntry (n : Slot) (t : Task) : RunEntry := { slot := n, rank := t.cfg.priority.castSucc }

/-- The state after one slot's part. -/
def Visit.at (v : Visit) (s : State) (n : Slot) : State :=
  ((s.setTask n (v.task (s.task n))).setRunQueue
    (if v.enters (s.task n) then placeNormal (normalEntry n (s.task n)) s.runQueue else s.runQueue)).setSysLatch
    { s.sysLatch with miss := s.sysLatch.miss || v.misses (s.task n) }

variable (v : Visit) (s : State)

theorem Visit.at_task (n m : Slot) : (v.at s n).task m = if m = n then v.task (s.task n) else s.task m :=
  State.setTask_task s n m _

/-- A part that neither enters its task nor counts a miss changes its record alone. -/
theorem Visit.at_record {n : Slot} {t : Task} (ht : v.task (s.task n) = t) (he : v.enters (s.task n) = false)
    (hm : v.misses (s.task n) = false) : v.at s n = s.setTask n t := by
  rw [Visit.at, ht, he, hm, Bool.or_false]
  rfl

theorem Visit.at_entry {n : Slot} {t : Task} (ht : v.task (s.task n) = t) (he : v.enters (s.task n) = true)
    (hm : v.misses (s.task n) = false) :
    v.at s n = (s.setTask n t).setRunQueue (placeNormal (normalEntry n (s.task n)) s.runQueue) := by
  rw [Visit.at, ht, he, hm, Bool.or_false]
  rfl

theorem Visit.at_miss {n : Slot} {t : Task} (ht : v.task (s.task n) = t) (he : v.enters (s.task n) = false)
    (hm : v.misses (s.task n) = true) : v.at s n = setMiss (s.setTask n t) := by
  rw [Visit.at, ht, he, hm, Bool.or_true]
  rfl

/-! ### The whole pass -/

/-- A pass changes each visited record once, makes the entries in the order of the visits, and sets MISS when some visit
counts a miss; nothing else changes. -/
theorem Visit.foldl_at {l : List Slot} (hl : l.Nodup) :
    (∀ m, (l.foldl v.at s).task m = if m ∈ l then v.task (s.task m) else s.task m) ∧
    l.foldl v.at s = { s with
      tasks := (l.foldl v.at s).tasks
      runQueue := (l.filter fun n => v.enters (s.task n)).foldl
        (fun q n => placeNormal (normalEntry n (s.task n)) q) s.runQueue
      sysLatch := { s.sysLatch with miss := s.sysLatch.miss || l.any fun n => v.misses (s.task n) } } := by
  induction l generalizing s with
  | nil => simp
  | cons k l ih =>
    obtain ⟨hk, hl⟩ := List.nodup_cons.1 hl
    obtain ⟨htask, hframe⟩ := ih (v.at s k) hl
    have later : ∀ m ∈ l, (v.at s k).task m = s.task m := fun m hm => by
      have hne : m ≠ k := fun e => hk (e ▸ hm)
      rw [v.at_task, if_neg hne]
    refine ⟨fun m => ?_, ?_⟩
    · rw [List.foldl_cons, htask]
      by_cases hm : m ∈ l
      · simp [hm, later m hm]
      · by_cases hmk : m = k
        · subst hmk
          simp [hk, v.at_task]
        · simp [hm, hmk, v.at_task]
    · have hfilter : (l.filter fun n => v.enters ((v.at s k).task n)) = l.filter fun n => v.enters (s.task n) :=
        List.filter_congr fun m hm => by rw [later m hm]
      have hany : (l.any fun n => v.misses ((v.at s k).task n)) = l.any fun n => v.misses (s.task n) := by
        rw [Bool.eq_iff_iff, List.any_eq_true, List.any_eq_true]
        exact exists_congr fun m => and_congr_right fun hm => by rw [later m hm]
      have hplace : ∀ q, (l.filter fun n => v.enters (s.task n)).foldl
          (fun q n => placeNormal (normalEntry n ((v.at s k).task n)) q) q =
          (l.filter fun n => v.enters (s.task n)).foldl (fun q n => placeNormal (normalEntry n (s.task n)) q) q :=
        fun q => List.foldl_ext _ _ q fun q' m hm => by rw [later m (List.mem_of_mem_filter hm)]
      rw [List.foldl_cons, hframe, hfilter, hany, hplace, List.filter_cons, List.any_cons, ← Bool.or_assoc]
      cases hen : v.enters (s.task k) <;> simp [Visit.at, hen]

/-- A pass over all slots. -/
theorem Visit.foldl_allSlots :
    (∀ m, (allSlots.foldl v.at s).task m = v.task (s.task m)) ∧
    allSlots.foldl v.at s = { s with
      tasks := (allSlots.foldl v.at s).tasks
      runQueue := (allSlots.filter fun n => v.enters (s.task n)).foldl
        (fun q n => placeNormal (normalEntry n (s.task n)) q) s.runQueue
      sysLatch := { s.sysLatch with miss := s.sysLatch.miss || decide (∃ n, v.misses (s.task n) = true) } } := by
  obtain ⟨htask, hframe⟩ := v.foldl_at s (List.nodup_finRange 16)
  have hmem (n : Slot) : n ∈ List.finRange 16 := List.mem_finRange n
  have hany : ((List.finRange 16).any fun n => v.misses (s.task n)) = decide (∃ n, v.misses (s.task n) = true) := by
    rw [Bool.eq_iff_iff, List.any_eq_true, decide_eq_true_iff]
    exact exists_congr fun n => and_iff_right (hmem n)
  rw [hany] at hframe
  exact ⟨fun m => by rw [allSlots, htask, if_pos (hmem m)], hframe⟩

/-- The entries of a pass: those there before, and one for each slot that enters. -/
theorem mem_foldl_placeNormal {f : Slot → RunEntry} {l : List Slot} {q : List RunEntry} {e : RunEntry} :
    e ∈ l.foldl (fun q n => placeNormal (f n) q) q ↔ e ∈ q ∨ ∃ n ∈ l, e = f n := by
  induction l generalizing q with
  | nil => simp
  | cons n l ih =>
    rw [List.foldl_cons, ih, mem_placeNormal]
    simp only [List.mem_cons, exists_eq_or_imp]
    tauto

/-! ### Due causes, countdowns and edges as parts of a pass (R29, R31, R32, R35) -/

/-- The record a due cause leaves: QUEUED when it was ARMED, a miss counted when it was busy. -/
def dueTask (t : Task) : Task :=
  match t.rt.state with
  | .armed => { t with rt := { t.rt with state := .queued } }
  | .queued => { t with rt := { t.rt with missCount := satInc t.rt.missCount } }
  | .converting => { t with rt := { t.rt with missCount := satInc t.rt.missCount } }
  | .stopped => t

theorem dueTask_armed {t : Task} (h : t.rt.state = .armed) :
    dueTask t = { t with rt := { t.rt with state := .queued } } := by simp only [dueTask, h]

theorem dueTask_busy {t : Task} (h : t.rt.state = .queued ∨ t.rt.state = .converting) :
    dueTask t = { t with rt := { t.rt with missCount := satInc t.rt.missCount } } := by
  rcases h with h | h <;> simp only [dueTask, h]

theorem dueTask_stopped {t : Task} (h : t.rt.state = .stopped) : dueTask t = t := by simp only [dueTask, h]

/-- A due cause as one slot's part (R31, R32). -/
def dueVisit : Visit where
  task := dueTask
  enters t := t.rt.state == .armed
  misses t := t.rt.state == .queued || t.rt.state == .converting

theorem makeDue_eq_visit (n : Slot) : makeDue .normal n s = dueVisit.at s n := by
  rcases makeDue_cases s .normal n with ⟨h, e⟩ | ⟨h, e⟩ | ⟨h, e⟩ <;> rw [e]
  · rw [dueVisit.at_entry s (dueTask_armed h) (by simp [dueVisit, h]) (by simp [dueVisit, h])]
    rfl
  · rw [dueVisit.at_miss s (dueTask_busy h) (by rcases h with h | h <;> simp [dueVisit, h])
      (by rcases h with h | h <;> simp [dueVisit, h])]
    rfl
  · rw [dueVisit.at_record s (dueTask_stopped h) (by simp [dueVisit, h]) (by simp [dueVisit, h]), setTask_self]

/-- A countdown reloaded with the period (R29). -/
def reloadTask (t : Task) : Task := { t with rt := { t.rt with countdown := t.cfg.period } }

/-- The countdown of this record ends at the next expiry. -/
def countdownDue (t : Task) : Bool := countdownActive t && t.rt.countdown == 1#16

/-- The countdowns' part of an expiry at one slot (R29). -/
def countdownVisit : Visit where
  task t :=
    if countdownActive t then
      if t.rt.countdown = 1#16 then dueTask (reloadTask t)
      else { t with rt := { t.rt with countdown := t.rt.countdown - 1#16 } }
    else t
  enters t := countdownDue t && t.rt.state == .armed
  misses t := countdownDue t && t.rt.state != .armed

theorem countdownVisit_idle {t : Task} (ha : countdownActive t = false) : countdownVisit.task t = t := by
  simp [countdownVisit, ha]

theorem countdownVisit_falls {t : Task} (ha : countdownActive t = true) (h1 : t.rt.countdown ≠ 1#16) :
    countdownVisit.task t = { t with rt := { t.rt with countdown := t.rt.countdown - 1#16 } } := by
  simp only [countdownVisit, ha, h1, if_true, if_false]

theorem countdownVisit_ends {t : Task} (ha : countdownActive t = true) (h1 : t.rt.countdown = 1#16) :
    countdownVisit.task t = dueTask (reloadTask t) := by
  simp only [countdownVisit, ha, h1, if_true]

theorem countdownActive_iff (t : Task) :
    countdownActive t = true ↔ t.cfg.mode = .periodic ∧ t.rt.state ≠ .stopped := by
  simp [countdownActive]

theorem countdownDue_iff (t : Task) :
    countdownDue t = true ↔ (t.cfg.mode = .periodic ∧ t.rt.state ≠ .stopped) ∧ t.rt.countdown = 1#16 := by
  simp [countdownDue, countdownActive]

/-- A part that two visits give the same record, entry and miss is the same. -/
theorem Visit.at_congr {v w : Visit} {s : State} {n : Slot} (ht : v.task (s.task n) = w.task (s.task n))
    (he : v.enters (s.task n) = w.enters (s.task n)) (hm : v.misses (s.task n) = w.misses (s.task n)) :
    v.at s n = w.at s n := by
  rw [Visit.at, Visit.at, ht, he, hm]

/-- A slot's part made right after a change of its record. -/
theorem Visit.at_setTask (n : Slot) (t : Task) : v.at (s.setTask n t) n =
    ((s.setTask n (v.task t)).setRunQueue
      (if v.enters t then placeNormal (normalEntry n t) s.runQueue else s.runQueue)).setSysLatch
      { s.sysLatch with miss := s.sysLatch.miss || v.misses t } := by
  rw [Visit.at, State.setTask_task_same]
  simp [State.setTask]

theorem countdownStep_eq_visit (n : Slot) : countdownStep s n = countdownVisit.at s n := by
  rcases countdownStep_cases s n with ⟨ha, e⟩ | ⟨ha, h1, e⟩ | ⟨ha, h1, e⟩ <;> rw [e]
  · have hdue : countdownDue (s.task n) = false := by simp [countdownDue, ha]
    rw [countdownVisit.at_record s (countdownVisit_idle ha) (by simp [countdownVisit, hdue])
      (by simp [countdownVisit, hdue]), setTask_self]
  · have hns := ((countdownActive_iff _).1 ha).2
    have hdue : countdownDue (s.task n) = true := by simp [countdownDue, ha, h1]
    have hmiss : dueVisit.misses (reloadTask (s.task n)) = countdownVisit.misses (s.task n) := by
      cases hst : (s.task n).rt.state <;> simp_all [dueVisit, countdownVisit, reloadTask]
    have henter : dueVisit.enters (reloadTask (s.task n)) = countdownVisit.enters (s.task n) := by
      simp [dueVisit, countdownVisit, hdue, reloadTask]
    have htask : dueVisit.task (reloadTask (s.task n)) = countdownVisit.task (s.task n) := (countdownVisit_ends ha h1).symm
    rw [makeDue_eq_visit]
    refine (dueVisit.at_setTask s n (reloadTask (s.task n))).trans ?_
    rw [hmiss, henter, htask]
    rfl
  · have hdue : countdownDue (s.task n) = false := by simp [countdownDue, h1]
    rw [countdownVisit.at_record s (countdownVisit_falls ha h1) (by simp [countdownVisit, hdue])
      (by simp [countdownVisit, hdue])]
    rfl

/-- An edge's part at one slot (R35). -/
def edgeVisit : Visit where
  task t := if t.cfg.mode = .external then dueTask t else t
  enters t := t.cfg.mode == .external && t.rt.state == .armed
  misses t := t.cfg.mode == .external && (t.rt.state == .queued || t.rt.state == .converting)

theorem edgeStep_eq_visit (n : Slot) : edgeStep s n = edgeVisit.at s n := by
  rcases edgeStep_cases s n with ⟨h, e⟩ | ⟨h, e⟩ <;> rw [e]
  · rw [makeDue_eq_visit]
    exact Visit.at_congr (by simp [dueVisit, edgeVisit, h]) (by simp [dueVisit, edgeVisit, h])
      (by simp [dueVisit, edgeVisit, h])
  · rw [edgeVisit.at_record s (t := s.task n) (by simp [edgeVisit, h]) (by simp [edgeVisit, h])
      (by simp [edgeVisit, h]), setTask_self]

theorem moveCountdowns_eq_visits : moveCountdowns s = allSlots.foldl countdownVisit.at s :=
  congrArg (fun f => allSlots.foldl f s) (funext fun u => funext (countdownStep_eq_visit u))

theorem foldl_edgeStep_eq_visits : allSlots.foldl edgeStep s = allSlots.foldl edgeVisit.at s :=
  congrArg (fun f => allSlots.foldl f s) (funext fun u => funext (edgeStep_eq_visit u))

/-! ### The Tick Timer (R25, R27, R29, R30) -/

theorem countdownVisit_enters_iff (t : Task) : countdownVisit.enters t = true ↔
    ((t.cfg.mode = .periodic ∧ t.rt.state ≠ .stopped) ∧ t.rt.countdown = 1#16) ∧ t.rt.state = .armed := by
  rw [← countdownDue_iff]
  simp [countdownVisit]

theorem countdownVisit_misses_iff (t : Task) : countdownVisit.misses t = true ↔
    ((t.cfg.mode = .periodic ∧ t.rt.state ≠ .stopped) ∧ t.rt.countdown = 1#16) ∧ t.rt.state ≠ .armed := by
  rw [← countdownDue_iff]
  simp [countdownVisit]

/-- A task that is neither STOPPED nor ARMED is busy (R3). -/
theorem busy_of_ne {t : Task} (hs : t.rt.state ≠ .stopped) (ha : t.rt.state ≠ .armed) :
    t.rt.state = .queued ∨ t.rt.state = .converting := by
  cases h : t.rt.state <;> simp_all

/-- Settles O32: the expiry is a pass over the slots, said slot by slot. -/
theorem tickMovesCountdowns : Obligations.TickMovesCountdowns := by
  intro s hr
  refine ⟨fun hrun => ?_, fun hrun => ?_⟩
  · rw [exec_tick_ready hr, tickExpiry_halted s hrun]
  · let s1 : State := { s with tickPeriod := s.tickDiv, tickCount := s.tickCount + 1#16 }
    obtain ⟨htask, hframe⟩ := countdownVisit.foldl_allSlots s1
    have hexec : exec .tick s = .next (allSlots.foldl countdownVisit.at s1) := by
      rw [exec_tick_ready hr, tickExpiry_running s hrun, moveCountdowns_eq_visits]
    have henters : (fun n => countdownVisit.enters (s.task n)) = fun n => decide _ :=
      funext fun n => Bool.eq_iff_iff.2 ((countdownVisit_enters_iff (s.task n)).trans decide_eq_true_iff.symm)
    have hrecord : ∀ n, (allSlots.foldl countdownVisit.at s1).task n = countdownVisit.task (s.task n) := htask
    refine ⟨_, hexec, ?_, ?_, fun n => ?_⟩
    · rw [hframe, ← henters]
      rfl
    · rw [hframe]
      simp only [← countdownVisit_misses_iff]
      rfl
    · rw [hrecord]
      refine ⟨fun hna => ?_, fun ha hnd => ?_, fun hd harm => ?_, fun hm => ?_⟩
      · exact countdownVisit_idle (Bool.eq_false_iff.2 (mt (countdownActive_iff _).1 hna))
      · exact countdownVisit_falls ((countdownActive_iff _).2 ha) fun h1 => hnd ⟨ha, h1⟩
      · rw [countdownVisit_ends ((countdownActive_iff _).2 hd.1) hd.2]
        exact dueTask_armed (t := reloadTask (s.task n)) harm
      · obtain ⟨⟨ha, h1⟩, harm⟩ := hm
        rw [countdownVisit_ends ((countdownActive_iff _).2 ha) h1,
          dueTask_busy (t := reloadTask (s.task n)) (busy_of_ne ha.2 harm), satInc_eq]
        rfl

/-- Settles O33: the expiry is the one that TICK gives. -/
theorem countdownExpiryMakesTaskDue : Obligations.CountdownExpiryMakesTaskDue := by
  intro s n hr hrun hm h1 hst
  have hends : countdownEnds n s = true := by simp [countdownEnds, countdownActive, hrun, hm, h1, hst]
  obtain ⟨t, ht, hframe, hlatch, hrecord⟩ := (tickMovesCountdowns s hr).2 hrun
  obtain ⟨_, _, hentered, hmissed⟩ := hrecord n
  have hsame : exec (.countdownExpiry n) s = exec .tick s := by
    rw [exec_countdownExpiry_ready hr, exec_tick_ready hr, expiryOf, if_pos hends]
  refine ⟨t, hsame.trans ht, ht, ?_, fun harm => ⟨?_, ?_⟩, fun harm => ⟨?_, ?_, ?_⟩⟩
  · by_cases harm : (s.task n).rt.state = .armed
    · rw [hentered ⟨⟨hm, hst⟩, h1⟩ harm]
    · rw [hmissed ⟨⟨⟨hm, hst⟩, h1⟩, harm⟩]
  · rw [hentered ⟨⟨hm, hst⟩, h1⟩ harm]
  · refine ⟨normalEntry n (s.task n), ?_, rfl, rfl⟩
    rw [hframe]
    refine (mem_foldl_placeNormal (f := fun k => normalEntry k (s.task k))).2 (.inr ⟨n, ?_, rfl⟩)
    exact List.mem_filter.2 ⟨List.mem_finRange n, decide_eq_true ⟨⟨⟨hm, hst⟩, h1⟩, harm⟩⟩
  · rw [hmissed ⟨⟨⟨hm, hst⟩, h1⟩, harm⟩]
  · rw [hlatch]
    simp only [Bool.or_eq_true, decide_eq_true_iff]
    exact .inr ⟨n, ⟨⟨hm, hst⟩, h1⟩, harm⟩
  · rw [hmissed ⟨⟨⟨hm, hst⟩, h1⟩, harm⟩]

/-! ### The TRIG input (R34, R35) -/

theorem edgeVisit_enters_iff (t : Task) :
    edgeVisit.enters t = true ↔ t.cfg.mode = .external ∧ t.rt.state = .armed := by
  simp [edgeVisit]

theorem edgeVisit_misses_iff (t : Task) : edgeVisit.misses t = true ↔
    t.cfg.mode = .external ∧ (t.rt.state = .queued ∨ t.rt.state = .converting) := by
  simp [edgeVisit]

theorem edgeVisit_other {t : Task} (h : t.cfg.mode ≠ .external) : edgeVisit.task t = t := by
  simp [edgeVisit, h]

theorem edgeVisit_external {t : Task} (h : t.cfg.mode = .external) : edgeVisit.task t = dueTask t := by
  simp [edgeVisit, h]

theorem otherLevel_eq (l : Level) : otherLevel l = if l = .low then .high else .low := by
  cases l <;> rfl

/-- Which edges qualify, by the level they leave (R34). -/
theorem edgeQualifies_iff (c : TrigSetting) (l : Level) : edgeQualifies c (otherLevel l) = true ↔
    c = .both ∨ (c = .rise ∧ l = .low) ∨ (c = .fall ∧ ¬ l = .low) := by
  cases c <;> cases l <;> decide

/-- Settles O34: a qualifying edge is a pass over the slots, said slot by slot. -/
theorem trigEdgeReachesExternalTasks : Obligations.TrigEdgeReachesExternalTasks := by
  intro s hr
  let s1 : State := { s with trigRef := otherLevel s.trigRef }
  have hexec : exec (.trigEdge .full) s = .next (recognisedEdge s) := exec_trigEdge_ready hr .full
  refine ⟨fun hq => ?_, fun hq => ?_⟩
  · rw [hexec, recognisedEdge, if_neg (mt (edgeQualifies_iff _ _).1 hq), otherLevel_eq]
  · obtain ⟨htask, hframe⟩ := edgeVisit.foldl_allSlots s1
    rw [recognisedEdge, if_pos ((edgeQualifies_iff _ _).2 hq), foldl_edgeStep_eq_visits] at hexec
    have henters : (fun n => edgeVisit.enters (s.task n)) = fun n => decide _ :=
      funext fun n => Bool.eq_iff_iff.2 ((edgeVisit_enters_iff (s.task n)).trans decide_eq_true_iff.symm)
    have hrecord : ∀ n, (allSlots.foldl edgeVisit.at s1).task n = edgeVisit.task (s.task n) := htask
    refine ⟨_, hexec, ?_, ?_, fun n => ?_⟩
    · rw [hframe, ← henters, ← otherLevel_eq]
      rfl
    · rw [hframe]
      simp only [← edgeVisit_misses_iff]
      rfl
    · rw [hrecord]
      refine ⟨fun hidle => ?_, fun hext harm => ?_, fun hm => ?_⟩
      · by_cases hext : (s.task n).cfg.mode = .external
        · rw [edgeVisit_external hext, dueTask_stopped (hidle.resolve_left (not_not.2 hext))]
        · exact edgeVisit_other hext
      · rw [edgeVisit_external hext, dueTask_armed harm]
      · rw [edgeVisit_external hm.1, dueTask_busy hm.2, satInc_eq]

end Sys2Proof.Machine
end

section
/-! SUPPORT. The statements about a delivery: what the A-th sample stores, what it leaves alone, and the Scheduler's part
(R36, R46, R50, R63 to R67, R82, R95, R96). -/

namespace Sys2Proof.Machine

variable {s : State}

/-! ### The whole delivery -/

/-- The A-th sample of a ready part is a delivery, of the result that the conversion has formed (R61 to R66). -/
theorem exec_delivery_result (hr : Ready s) {c : Conversion} (hc : s.conv = some c) (hp : c.phase = .sampling)
    (ha : c.samples + 1 = c.params.avg.count) (code : BitVec 12) (o : Bool) :
    ∃ r : ConvResult, exec (.delivery code o) s = .next (deliverResult r s) ∧ r.slot = c.slot ∧
      r.gain = c.workingGain ∧ r.res = c.params.res ∧ r.overFlag = (c.overSeen || o) ∧
      (c.sum ≤ c.samples * c.params.res.fullScale →
        r.code.toNat = (c.sum + sampleCode c.params.res code o) / c.params.avg.count ∧
        r.code.toNat ≤ r.res.fullScale) := by
  have hn := (nextCompletes_iff c).2 ⟨hp, ha⟩
  refine ⟨formResult (addSample c code o), ?_, rfl, rfl, rfl, rfl, fun hsum => completed_code_le hsum hn code o⟩
  rw [exec_delivery_ready hr, completeConversion_eq hc hn]

/-- What a delivery changes: the task table, the Run Queue, the run state, the unit, the Result Queue, the delivering task's
latch, and the latches QOVER, QREADY, MISS and HALTED. -/
theorem deliverResult_frame (r : ConvResult) (s : State) : deliverResult r s = { s with
    tasks := (deliverResult r s).tasks
    runQueue := (deliverResult r s).runQueue
    runState := if s.runState = .halting then .halted else s.runState
    conv := none
    rq := (deliverResult r s).rq
    taskLatch :=
      if (windowOutcome (s.task r.slot) r).fired then s.taskLatch ||| latchBit r.slot else s.taskLatch
    sysLatch := { s.sysLatch with
      qover := (deliverResult r s).sysLatch.qover
      qready := (deliverResult r s).sysLatch.qready
      miss := (deliverResult r s).sysLatch.miss
      halted := s.sysLatch.halted || (s.runState == .halting) } } := by
  rw [deliverResult_eq, schedulerPart_frame, measured_frame]

/-- The delivering task's record: what the measuring blocks store, STOPPED or ARMED. -/
theorem deliverResult_task_self {r : ConvResult} (hl : (s.task r.slot).cfg.link ≠ some r.slot) :
    (deliverResult r s).task r.slot =
      { measuredTask r (s.task r.slot) with
        rt := { (measuredTask r (s.task r.slot)).rt with
          state := if (s.task r.slot).cfg.single then .stopped else .armed } } := by
  rw [deliverResult_eq, schedulerPart_task_self _ (by rwa [measured_cfg]), measured_task_self]
  rfl

theorem deliverResult_cfg (r : ConvResult) (s : State) (n : Slot) :
    ((deliverResult r s).task n).cfg = (s.task n).cfg := by
  rw [deliverResult_eq, schedulerPart_cfg, measured_cfg]

theorem deliverResult_task_other {r : ConvResult} {n : Slot} (hn : n ≠ r.slot) (hl : (s.task r.slot).cfg.link ≠ some n) :
    (deliverResult r s).task n = s.task n := by
  rw [deliverResult_eq, schedulerPart_task_other _ hn (by rwa [measured_cfg]), measured_task_other r s hn]

/-! ### What it stores (R63 to R67, R82, R95) -/

/-- The code that a sample adds to the sum, for a converter that keeps to its range (R61, R62). -/
theorem sampleCode_eq (r : Resolution) {code : BitVec 12} {o : Bool} (h : o = false → code.toNat ≤ 2 ^ r.width - 1) :
    sampleCode r code o = if o then 2 ^ r.width - 1 else code.toNat := by
  cases o with
  | true => rfl
  | false => exact min_eq_left (h rfl)

/-- N of a code is stored whole (R83). -/
theorem lastN_toNat {code : BitVec 12} {r : Resolution} (h : code.toNat ≤ r.fullScale) (g : Gain) :
    (BitVec.ofNat 15 (normalise code r g)).toNat = normalise code r g := by
  have := normalise_le h g
  rw [BitVec.toNat_ofNat]
  omega

/-- The fields that a delivery stores in the delivering task's record. -/
theorem deliverResult_stores {r : ConvResult} (hl : (s.task r.slot).cfg.link ≠ some r.slot)
    (hfull : r.code.toNat ≤ r.res.fullScale) :
    let t0 := s.task r.slot
    let x := ((deliverResult r s).task r.slot).rt
    let zone := evaluateZone t0.cfg t0.rt.zone (normalise r.code r.res r.gain) r.overFlag
    x.lastCode = r.code ∧ x.lastN.toNat = normalise r.code r.res r.gain ∧ x.lastOver = r.overFlag ∧ x.gain = r.gain ∧
    x.zone = zone ∧ x.lastFired = entryFires t0.cfg t0.rt.zone zone ∧
    x.state = (if t0.cfg.single then .stopped else .armed) ∧ x.countdown = t0.rt.countdown := by
  rw [deliverResult_task_self hl]
  exact ⟨rfl, lastN_toNat hfull r.gain, rfl, rfl, rfl, rfl, rfl, rfl⟩

/-- Settles O39. -/
theorem deliveryStoresResult : Obligations.DeliveryStoresResult := by
  intro s c code o hr hc hp ha hsum hl hcode
  obtain ⟨r, hexec, hslot, hgain, hres, hover, hresult⟩ := exec_delivery_result hr hc hp ha code o
  obtain ⟨hmean, hfull⟩ := hresult hsum
  have hn : r.code.toNat * 2 ^ (12 - c.params.res.width) * (8 / c.workingGain.factor) =
      normalise r.code r.res r.gain := by
    rw [normalise, multiplier, hres, hgain, Nat.mul_assoc]
  rw [sampleCode_eq c.params.res hcode] at hmean
  dsimp only
  rw [← hmean, hn, ← hslot, ← hover, ← hgain]
  rw [← hslot] at hl
  obtain ⟨hlast, hstored⟩ := deliverResult_stores hl hfull
  have hconv := deliverResult_conv r s
  exact ⟨_, hexec, hconv, by rw [curtask, hconv], deliverResult_cfg r s r.slot, by rw [hlast], hstored⟩

/-! ### What it leaves alone (R46, R66, R96, R140, R141) -/

/-- The one task latch that a delivery can change is the delivering task's, set when the result fires (R96). -/
theorem deliverResult_taskLatch {r : ConvResult} (hl : (s.task r.slot).cfg.link ≠ some r.slot) (n : Slot) :
    (deliverResult r s).taskLatch.getLsbD n.val =
      (s.taskLatch.getLsbD n.val || (decide (n = r.slot) && ((deliverResult r s).task r.slot).rt.lastFired)) := by
  have hfired : ((deliverResult r s).task r.slot).rt.lastFired = (windowOutcome (s.task r.slot) r).fired := by
    rw [deliverResult_task_self hl]
    rfl
  have hlatch : (deliverResult r s).taskLatch =
      if (windowOutcome (s.task r.slot) r).fired then s.taskLatch ||| latchBit r.slot else s.taskLatch := by
    rw [deliverResult_frame]
  rw [hfired, hlatch]
  cases (windowOutcome (s.task r.slot) r).fired
  · simp
  · rw [if_pos rfl, BitVec.getLsbD_or, latchBit_getLsbD, Bool.and_true]

/-- Settles O40. -/
theorem deliveryFrame : Obligations.DeliveryFrame := by
  intro s c code o hr hc hp ha hl
  obtain ⟨r, hexec, hslot, _⟩ := exec_delivery_result hr hc hp ha code o
  rw [← hslot] at hl ⊢
  refine ⟨_, hexec, deliverResult_cfg r s, fun n hn hln => deliverResult_task_other hn hln, ?_, ?_, ?_, ?_,
    deliverResult_taskLatch hl⟩ <;> rw [deliverResult_frame]

/-! ### The Scheduler's part (R36, R46, R50) -/

/-- The state in which the link acts: the delivering task has left CONVERTING. -/
def beforeLink (r : ConvResult) (s : State) : State := leaveConverting r.slot (measured r s)

theorem deliverResult_no_link {r : ConvResult} (hl : (s.task r.slot).cfg.link = none) :
    deliverResult r s = endHalt (beforeLink r s) := by
  rw [deliverResult_eq, schedulerPart, followLink_none, beforeLink]
  simpa [leaveConverting] using hl

theorem deliverResult_link {r : ConvResult} {m : Slot} (hl : (s.task r.slot).cfg.link = some m) :
    deliverResult r s = endHalt (makeDue .chained m (beforeLink r s)) := by
  rw [deliverResult_eq, schedulerPart, followLink_some _ (t := m), beforeLink]
  simpa [leaveConverting] using hl

/-- Before the link acts the Run Queue and the MISS latch are as they were. -/
theorem beforeLink_scheduler (r : ConvResult) (s : State) :
    (beforeLink r s).runQueue = s.runQueue ∧ (beforeLink r s).sysLatch.miss = s.sysLatch.miss := by
  rw [beforeLink, leaveConverting, State.setTaskState_runQueue, State.setTaskState_sysLatch, measured_frame]
  exact ⟨rfl, rfl⟩

theorem beforeLink_task_other {r : ConvResult} {m : Slot} (hm : m ≠ r.slot) : (beforeLink r s).task m = s.task m := by
  rw [beforeLink, leaveConverting_task, if_neg hm, measured_task_other r s hm]

/-- The end of a halt leaves the Run Queue and the MISS latch as they were. -/
theorem endHalt_scheduler (s : State) :
    (endHalt s).runQueue = s.runQueue ∧ (endHalt s).sysLatch.miss = s.sysLatch.miss := by
  rw [endHalt_eq]
  exact ⟨rfl, rfl⟩

/-- What a delivery does to the entries, to the MISS latch and to the target of a link to another slot is what the due cause
does (R36). -/
theorem deliverResult_target {r : ConvResult} {m : Slot} (hl : (s.task r.slot).cfg.link = some m) :
    (deliverResult r s).runQueue = (makeDue .chained m (beforeLink r s)).runQueue ∧
    (deliverResult r s).sysLatch.miss = (makeDue .chained m (beforeLink r s)).sysLatch.miss ∧
    (deliverResult r s).task m = (makeDue .chained m (beforeLink r s)).task m := by
  rw [deliverResult_link hl, endHalt_task]
  exact ⟨(endHalt_scheduler _).1, (endHalt_scheduler _).2, rfl⟩

/-- Settles O41. -/
theorem deliveryFollowsLinkAndEndsHalt : Obligations.DeliveryFollowsLinkAndEndsHalt := by
  intro s c code o hr hc hp ha
  obtain ⟨r, hexec, hslot, _⟩ := exec_delivery_result hr hc hp ha code o
  obtain ⟨hqueue, hmiss⟩ := beforeLink_scheduler r s
  rw [← hslot]
  refine ⟨_, hexec, by rw [deliverResult_frame], by rw [deliverResult_frame], fun hl => ?_, fun m hl hm => ?_⟩
  · rw [deliverResult_no_link hl, (endHalt_scheduler _).1, (endHalt_scheduler _).2]
    exact ⟨hqueue, hmiss⟩
  · obtain ⟨hq, hmi, ht⟩ := deliverResult_target hl
    have hm0 : (beforeLink r s).task m = s.task m := beforeLink_task_other hm
    rw [hq, hmi, ht, ← hm0, ← hqueue, ← hmiss]
    refine ⟨fun hst => ?_, fun hst => ?_, fun hst => ?_⟩
    · rw [makeDue_armed _ hst]
      exact ⟨rfl, rfl, enterTask_task_same _ _ m⟩
    · rw [makeDue_busy _ (.inl hst), missTask_task_same, satInc_eq]
      exact ⟨rfl, rfl, rfl⟩
    · rw [makeDue_stopped _ hst]
      exact ⟨rfl, rfl, rfl⟩

end Sys2Proof.Machine
end

section
/-! SUPPORT. The plain registers: what a write stores and a read returns (R26, R28, R34, R135, R147, R153, R159). -/

namespace Sys2Proof.Machine

variable {s : State}

/-! ### Bits of the registers -/

/-- The bits of a two-byte quantity, high byte first (R12). -/
theorem joinBytes_getLsbD (hi lo : Byte) (i : Nat) :
    (joinBytes hi lo).getLsbD i = if i < 8 then lo.getLsbD i else hi.getLsbD (i - 8) :=
  BitVec.getLsbD_append

theorem hiByte_getLsbD (w : Word16) {i : Nat} (h : i < 8) : (hiByte w).getLsbD i = w.getLsbD (8 + i) := by
  simp [hiByte, h]

theorem loByte_getLsbD (w : Word16) {i : Nat} (h : i < 8) : (loByte w).getLsbD i = w.getLsbD i := by
  simp [loByte, h]

/-- RQCFG reads as it was written, bits 6-5 as 0 (R135). -/
theorem rqcfgByte_writeRqcfg (v : Byte) (q : ResultQueue) : rqcfgByte (writeRqcfg v q) = v &&& 0x9F#8 := by
  have key : ∀ v : Byte, rqcfgByte (writeRqcfg v defaultQueue) = v &&& 0x9F#8 := by decide
  exact key v

/-- TRIGCFG reads as it was written, bits 7-2 as 0 (R34). -/
theorem trigCfg_read_after_write (v : Byte) : 0#6 ++ (trigSettingOf (v.extractLsb' 0 2)).enc = v &&& 0x03#8 := by
  rw [enc_trigSettingOf]
  revert v
  decide

/-- The setting of TRIGCFG by the number in its bits 1-0 (R34). -/
theorem trigSettingOf_extract (v : Byte) :
    (v.toNat % 4 = 0 → trigSettingOf (v.extractLsb' 0 2) = .off) ∧
    (v.toNat % 4 = 1 → trigSettingOf (v.extractLsb' 0 2) = .rise) ∧
    (v.toNat % 4 = 2 → trigSettingOf (v.extractLsb' 0 2) = .fall) ∧
    (v.toNat % 4 = 3 → trigSettingOf (v.extractLsb' 0 2) = .both) := by
  have field : ∀ k : BitVec 2, v.toNat % 4 = k.toNat → v.extractLsb' 0 2 = k := fun k hk => by
    apply BitVec.eq_of_toNat_eq
    rw [extractLsb'_toNat_div, ← hk]
    omega
  refine ⟨fun h => ?_, fun h => ?_, fun h => ?_, fun h => ?_⟩
  · rw [field 0#2 h]; rfl
  · rw [field 1#2 h]; rfl
  · rw [field 2#2 h]; rfl
  · rw [field 3#2 h]; rfl

/-- The policy that bit 7 of RQCFG selects (R135). -/
theorem policyBit_eq (v : Byte) :
    (if v.getLsbD 7 then QueuePolicy.overwrite else .dropNew) = if 128 ≤ v.toNat then .overwrite else .dropNew := by
  have hv := v.isLt
  have hbit : v.getLsbD 7 = true ↔ 128 ≤ v.toNat := by
    rw [getLsbD_iff_div]
    omega
  simp only [hbit]

/-! ### The writes -/

/-- A write at a position that no read/write register holds is ignored (R152, R153). -/
theorem registerWriteEffect_ignored {a : Addr} (h : a.toNat ∉ [0x00, 0x01, 0x05, 0x06, 0x0A, 0x0F, 0x10, 0x11, 0x12, 0x13, 0x16])
    (v : Byte) (s : State) : registerWriteEffect a v s = s := by
  simp only [List.mem_cons, List.not_mem_nil, or_false, not_or] at h
  unfold registerWriteEffect
  split <;> simp_all

/-- A position other than CMD, STOFS and STDATA is REGISTER_WRITE's (R153). -/
theorem registerWrite_wellFormed {a : Addr} (h0 : a.toNat ≠ 0x00) (h5 : a.toNat ≠ 0x05) (h6 : a.toNat ≠ 0x06) (v : Byte) :
    (Instr.registerWrite a v).wellFormed = true := by
  have hne : ∀ b : Addr, a.toNat ≠ b.toNat → a ≠ b := fun b hb e => hb (e ▸ rfl)
  simp [Instr.wellFormed, ownedWritePositions, hne 0x00#5 h0, hne 0x05#5 h5, hne 0x06#5 h6]

theorem exec_registerWrite_ignored (hr : Ready s) {a : Addr}
    (h : a.toNat ∉ [0x00, 0x01, 0x05, 0x06, 0x0A, 0x0F, 0x10, 0x11, 0x12, 0x13, 0x16]) (v : Byte) :
    exec (.registerWrite a v) s = .next { s with dataOut := none } := by
  have hw : ∀ v, (Instr.registerWrite a v).wellFormed = true := by
    simp only [List.mem_cons, List.not_mem_nil, or_false, not_or] at h
    obtain ⟨h0, _, h5, h6, _⟩ := h
    exact registerWrite_wellFormed h0 h5 h6
  rw [exec_registerWrite_ready hr hw, registerWriteEffect_ignored h]
  rfl

/-- Settles O52. -/
theorem ticklReadCapturesHighByte : Obligations.TicklReadCapturesHighByte := by
  intro s v hr
  exact ⟨⟨loByte s.tickCount, hiByte s.tickCount, hiByte_loByte_toNat s.tickCount, exec_ticklRead_ready hr⟩, rfl,
    exec_registerWrite_ignored hr (by decide) v, exec_registerWrite_ignored hr (by decide) v⟩

/-- Settles O53, register by register. -/
theorem registerWriteStoresUsedBits : Obligations.RegisterWriteStoresUsedBits := by
  intro s v hr
  have write {a : Addr} (hw : ∀ v, (Instr.registerWrite a v).wellFormed = true) :=
    exec_registerWrite_ready hr hw v
  refine ⟨⟨_, write fun _ => rfl, rfl, rfl⟩, ?_, ?_, ?_, ⟨_, write fun _ => rfl, rfl, rfl⟩, ?_, ?_, ?_,
    fun a ha => exec_registerWrite_ignored hr ha v⟩
  · refine ⟨_, v.extractLsb' 0 5, write fun _ => rfl, ?_, ?_, rqcfgByte_writeRqcfg v s.rq⟩
    · simp
    · rw [← policyBit_eq]
      rfl
  · refine ⟨_, joinBytes (hiByte s.taskEnable) v, write fun _ => rfl, rfl, fun n => ?_, loByte_join _ _, hiByte_join _ _⟩
    rw [joinBytes_getLsbD]
    split
    · rfl
    · rw [hiByte_getLsbD _ (by omega), Nat.add_sub_cancel' (by omega)]
  · refine ⟨_, joinBytes v (loByte s.taskEnable), write fun _ => rfl, rfl, fun n => ?_, hiByte_join _ _, loByte_join _ _⟩
    rw [joinBytes_getLsbD]
    by_cases h : n.val < 8
    · rw [if_pos h, if_neg (by omega), loByte_getLsbD _ h]
    · rw [if_neg h, if_pos (by omega)]
  · refine ⟨_, joinBytes (hiByte s.tickDiv) v, write fun _ => rfl, rfl, ?_, loByte_join _ _, hiByte_join _ _⟩
    rw [joinBytes_toNat, hiByte_toNat]
  · refine ⟨_, joinBytes v (loByte s.tickDiv), write fun _ => rfl, rfl, ?_, hiByte_join _ _, loByte_join _ _⟩
    rw [joinBytes_toNat, loByte_toNat]
  · obtain ⟨hoff, hrise, hfall, hboth⟩ := trigSettingOf_extract v
    exact ⟨_, trigSettingOf (v.extractLsb' 0 2), write fun _ => rfl, rfl, hoff, hrise, hfall, hboth,
      trigCfg_read_after_write v⟩

end Sys2Proof.Machine
end

section
/-! SUPPORT. The statements about the conversion sequence between the take and the delivery: the end of settling, the end of
ranging, and the samples before the last (R58, R60 to R62). -/

namespace Sys2Proof.Machine

/-- Settles O36: each of the two events meets the unit in its own phase and replaces the conversion alone. -/
theorem settlingAndRangingEnd : Obligations.SettlingAndRangingEnd := by
  intro s c v hr hc
  refine ⟨fun hp => ⟨rfl, ?_⟩, fun hp => ?_⟩
  · rw [exec_settlingExpiry_ready hr, endSettling_eq hc hp]
    rfl
  · rw [exec_coarseConversionEnd_ready hr, endRanging_eq hc hp]
    rfl

/-- The conversion after a sample, for a converter that keeps to its range (R61, R62). -/
theorem addSample_eq (c : Conversion) {code : BitVec 12} {o : Bool}
    (h : o = false → code.toNat ≤ 2 ^ c.params.res.width - 1) :
    addSample c code o = { c with
      samples := c.samples + 1
      sum := c.sum + (if o then 2 ^ c.params.res.width - 1 else code.toNat)
      overSeen := c.overSeen || o } := by
  rw [addSample, sampleCode_eq c.params.res h]

/-- Settles O38. -/
theorem sampleAccumulates : Obligations.SampleAccumulates := by
  intro s c code o hr hc hp hmore hcode
  have hnext : moreAfterNext c = true := (moreAfterNext_iff c).2 ⟨hp, hmore⟩
  rw [exec_sample_ready hr, takeSample_eq hc hnext, addSample_eq c hcode]
  rfl

end Sys2Proof.Machine
end

section
/-! SUPPORT. The statements about the gain ranging and the scale of the results: the AUTO decision (R76 to R78) and the
normalised value (R82, R83). -/

namespace Sys2Proof.Machine

/-! ### The AUTO decision (R76 to R78) -/

/-- `g` is the largest gain with the property `P`, or `d` when no gain has it: the form of R77 and of R78. -/
def LargestGainOr (P : Gain → Prop) (d g : Gain) : Prop :=
  ((∃ x, P x) → P g ∧ ∀ x, P x → x.factor ≤ g.factor) ∧ ((¬ ∃ x, P x) → g = d)

theorem mem_gainsDescending (g : Gain) : g ∈ gainsDescending := by cases g <;> decide

theorem gainsDescending_pairwise : gainsDescending.Pairwise fun x y => y.factor ≤ x.factor := by decide

/-- The first gain found from the largest down is the largest of all that qualify. -/
theorem factor_le_of_find?_gainsDescending {p : Gain → Bool} {g : Gain} (h : gainsDescending.find? p = some g)
    {x : Gain} (hx : p x = true) : x.factor ≤ g.factor := by
  obtain ⟨_, before, after, hsplit, hbefore⟩ := List.find?_eq_some_iff_append.1 h
  have hmem : x ∈ before ++ g :: after := hsplit ▸ mem_gainsDescending x
  have hsorted := hsplit ▸ gainsDescending_pairwise
  rcases List.mem_append.1 hmem with hin | hin
  · simpa [hx] using hbefore x hin
  · rcases List.mem_cons.1 hin with rfl | hafter
    · exact le_rfl
    · exact List.rel_of_pairwise_cons (List.pairwise_append.1 hsorted).2.1 hafter

theorem find?_gainsDescending_largest (P : Gain → Prop) [DecidablePred P] (d : Gain) :
    LargestGainOr P d ((gainsDescending.find? fun x => decide (P x)).getD d) := by
  cases hfind : gainsDescending.find? fun x => decide (P x) with
  | none =>
    have hnone : ¬ ∃ x, P x := fun ⟨x, hx⟩ => List.find?_eq_none.1 hfind x (mem_gainsDescending x) (decide_eq_true hx)
    exact ⟨fun hex => absurd hex hnone, fun _ => rfl⟩
  | some g =>
    have hg : P g := of_decide_eq_true (List.find?_some (p := fun x => decide (P x)) hfind)
    exact ⟨fun _ => ⟨hg, fun _ hx => factor_le_of_find?_gainsDescending hfind (decide_eq_true hx)⟩,
      fun hnone => absurd ⟨g, hg⟩ hnone⟩

/-- The step down (R77). -/
theorem stepDownGain_largest (c : BitVec 6) (g : Gain) :
    LargestGainOr (fun x => x.factor < g.factor ∧ c.toNat * x.factor ≤ 55) .x1 (stepDownGain c g) :=
  find?_gainsDescending_largest _ _

/-- The step up, or the stay (R78). -/
theorem stepUpGain_largest (c : BitVec 6) (g : Gain) :
    LargestGainOr (fun x => g.factor < x.factor ∧ c.toNat * x.factor ≤ 39) g (stepUpGain c g) :=
  find?_gainsDescending_largest _ _

theorem autoGain_of_above {c : BitVec 6} {g : Gain} (h : 55 < c.toNat * g.factor) : autoGain c g = stepDownGain c g :=
  if_pos h

theorem autoGain_of_le {c : BitVec 6} {g : Gain} (h : c.toNat * g.factor ≤ 55) : autoGain c g = stepUpGain c g :=
  if_neg h.not_gt

/-- Settles O37: on each side of the threshold the decision is a search from the largest gain down. -/
theorem autoGainStepsByThresholds : Obligations.AutoGainStepsByThresholds := by
  intro c g
  refine ⟨fun habove => ?_, fun hle => ?_⟩
  · rw [autoGain_of_above habove]
    exact stepDownGain_largest c g
  · rw [autoGain_of_le hle]
    exact stepUpGain_largest c g

/-! ### The normalised value (R82, R83) -/

/-- The multiplier makes up exactly for the resolution and the gain: no entry of R82's table is rounded. -/
theorem multiplier_mul_factor_mul_two_pow (r : Resolution) (g : Gain) :
    multiplier r g * g.factor * 2 ^ r.width = 32768 := by
  cases r <;> cases g <;> decide

/-- N stands for the code on the common scale of 1/32768 of the reference, whatever the resolution and the gain (R82). -/
theorem normalise_mul_factor_mul_two_pow (code : BitVec 12) (r : Resolution) (g : Gain) :
    normalise code r g * g.factor * 2 ^ r.width = code.toNat * 32768 := by
  rw [normalise, Nat.mul_assoc, Nat.mul_assoc, ← Nat.mul_assoc (multiplier r g), multiplier_mul_factor_mul_two_pow]

/-- Settles O44. -/
theorem normalisedValueInRange : Obligations.NormalisedValueInRange := by
  intro code r g hcode
  exact ⟨normalise_le hcode g, normalise_mul_factor_mul_two_pow code r g, by decide⟩

end Sys2Proof.Machine
end

section
/-! SUPPORT. The statement about the Window Monitor's decisions: the zone of a result (R88 to R92) and which entries fire
(R93, R94). -/

namespace Sys2Proof.Machine

/-! ### The zone (R88 to R92) -/

/-- A valid window keeps the boundaries of the zones in order (section 5.2). -/
theorem window_boundaries_ordered {c : TaskConfig} (hv : ConfigValid c) :
    c.low.toNat + c.hyst.toNat ≤ c.high.toNat - c.hyst.toNat ∧ c.low.toNat + c.hyst.toNat ≤ c.high.toNat := by
  obtain ⟨-, hlimits, hhyst⟩ := hv
  omega

section
variable {c : TaskConfig} {n : Nat}

theorem zoneByLimits_above (h : c.high.toNat < n) : zoneByLimits c n = .above := if_pos h

theorem zoneByLimits_below (hhigh : n ≤ c.high.toNat) (hlow : n < c.low.toNat) : zoneByLimits c n = .below := by
  rw [zoneByLimits, if_neg hhigh.not_gt, if_pos hlow]

theorem zoneByLimits_inside (hlow : c.low.toNat ≤ n) (hhigh : n ≤ c.high.toNat) : zoneByLimits c n = .inside := by
  rw [zoneByLimits, if_neg hhigh.not_gt, if_neg hlow.not_gt]

theorem zoneFromAbove_below (h : n < c.low.toNat) : zoneFromAbove c n = .below := if_pos h

theorem zoneFromAbove_inside (hlow : c.low.toNat ≤ n) (hback : n ≤ c.high.toNat - c.hyst.toNat) :
    zoneFromAbove c n = .inside := by
  rw [zoneFromAbove, if_neg hlow.not_gt, if_pos hback]

theorem zoneFromAbove_above (hlow : c.low.toNat ≤ n) (hstay : c.high.toNat - c.hyst.toNat < n) :
    zoneFromAbove c n = .above := by
  rw [zoneFromAbove, if_neg hlow.not_gt, if_neg hstay.not_ge]

theorem zoneFromBelow_above (h : c.high.toNat < n) : zoneFromBelow c n = .above := if_pos h

theorem zoneFromBelow_inside (hback : c.low.toNat + c.hyst.toNat ≤ n) (hhigh : n ≤ c.high.toNat) :
    zoneFromBelow c n = .inside := by
  rw [zoneFromBelow, if_neg hhigh.not_gt, if_pos hback]

theorem zoneFromBelow_below (hstay : n < c.low.toNat + c.hyst.toNat) (hhigh : n ≤ c.high.toNat) :
    zoneFromBelow c n = .below := by
  rw [zoneFromBelow, if_neg hhigh.not_gt, if_neg hstay.not_ge]

/-- The first column of the table of zone transitions: a result below LOW moves every stored zone BELOW. -/
theorem evaluateZone_below_of_lt_low (hv : ConfigValid c) (h : n < c.low.toNat) (z : Zone) :
    evaluateZone c z n false = .below := by
  obtain ⟨-, hbound⟩ := window_boundaries_ordered hv
  have hhigh : n ≤ c.high.toNat := by omega
  cases z with
  | unknown | inside => exact zoneByLimits_below hhigh h
  | above => exact zoneFromAbove_below h
  | below => exact zoneFromBelow_below (by omega) hhigh

/-- The last column of the table of zone transitions: a result above HIGH moves every stored zone ABOVE. -/
theorem evaluateZone_above_of_high_lt (hv : ConfigValid c) (h : c.high.toNat < n) (z : Zone) :
    evaluateZone c z n false = .above := by
  obtain ⟨-, hbound⟩ := window_boundaries_ordered hv
  cases z with
  | unknown | inside => exact zoneByLimits_above h
  | above => exact zoneFromAbove_above (by omega) (by omega)
  | below => exact zoneFromBelow_above h

end

/-! ### The entries that fire (R93, R94) -/

theorem entryEnable_iff (c : TaskConfig) (w : Zone) :
    entryEnable c w = true ↔
      (w = .above ∧ c.enAbove = true) ∨ (w = .inside ∧ c.enInside = true) ∨ (w = .below ∧ c.enBelow = true) := by
  cases w <;> simp [entryEnable]

theorem entryFires_iff (c : TaskConfig) (z w : Zone) :
    entryFires c z w = true ↔ z ≠ w ∧ (z = .unknown → c.firstZone = true) ∧ entryEnable c w = true := by
  simp only [entryFires, Bool.and_eq_true, Bool.or_eq_true, bne_iff_ne, imp_iff_not_or, ne_eq, and_assoc]
  rw [and_comm (a := entryEnable c w = true)]

/-- Settles O43, column by column of the table of zone transitions; the order of the boundaries settles which test of the
evaluation answers. -/
theorem zonesAndEntriesFollowTheTable : Obligations.ZonesAndEntriesFollowTheTable := by
  intro c n hv low high hyst
  obtain ⟨hback, hbound⟩ : low + hyst ≤ high - hyst ∧ low + hyst ≤ high := window_boundaries_ordered hv
  refine ⟨fun _ => rfl, fun z h => evaluateZone_below_of_lt_low hv h z, fun z h => evaluateZone_above_of_high_lt hv h z,
    fun hlow hhigh => ⟨zoneByLimits_inside hlow hhigh, zoneByLimits_inside hlow hhigh⟩,
    fun hlow hin => zoneFromAbove_inside hlow (Nat.le_sub_of_add_le hin), fun hstay hhigh => ?_, fun _ hstay => ?_,
    zoneFromBelow_inside, fun z w _ => ?_⟩
  · have habove : high - hyst < n := by omega
    exact zoneFromAbove_above (((Nat.le_add_right _ _).trans hback).trans habove.le) habove
  · exact zoneFromBelow_below hstay (hstay.le.trans hbound)
  · rw [entryFires_iff, entryEnable_iff]

end Sys2Proof.Machine
end

section
/-! SUPPORT. The statements about the Record Builder and the Result Queue: the laws of the queue along every step (L3, L4, L5,
L11: R111, R114, R117, R118, R127), the record a delivery offers (R103 to R109, R125, R126), and the bytes of a stored record
(R111, R113). -/

namespace Sys2Proof.Machine

/-! ### The laws of the queue along every step -/

/-- A due cause, a countdown, a take and an event before the delivery change nothing of the Result Queue; the accesses and
the delivery keep its laws. -/
theorem queueLaws_stepKept : StepKept fun s => QueueLaws s.rq where
  same h hp := by rw [hp.rq]; exact h
  reset := default_queueLaws
  access i b _ h := h.accessEffect i b
  due n s h := by rw [makeDue_rq]; exact h
  countdown n s h := by rw [countdownStep_frame]; exact h
  take s h := by
    unfold takeHead
    split <;> exact h
  settling s h := by rw [endSettling_setConv]; exact h
  ranging v s h := by rw [endRanging_setConv]; exact h
  sample code o s h := by rw [takeSample_setConv]; exact h
  delivery code o _ h := h.completeConversion code o

/-- Settles O57: only the accesses and the delivery reach the queue, and each of its operations keeps the laws. -/
theorem stepKeepsQueueLaws : Obligations.StepKeepsQueueLaws := fun _ _ h e => queueLaws_stepKept.step h e

/-! ### The decision of the Record Builder (R104, R105) -/

theorem keepsRecord_iff (t : Task) (fired : Bool) : keepsRecord t fired = true ↔
    t.cfg.recMode = .always ∨ (t.cfg.recMode = .onEvent ∧ fired = true) ∨
      (t.cfg.recMode = .everyN ∧ t.rt.decCount.toNat + 1 = t.cfg.decimation) := by
  unfold keepsRecord
  cases t.cfg.recMode <;> simp

theorem nextDecCount_other {t : Task} (h : t.cfg.recMode ≠ .everyN) : nextDecCount t = t.rt.decCount := by
  unfold nextDecCount
  split <;> trivial

/-- Under EVERY_N the count starts again with the result that is kept. -/
theorem nextDecCount_everyN {t : Task} (h : t.cfg.recMode = .everyN) (fired : Bool) :
    nextDecCount t = if keepsRecord t fired then 0#4 else t.rt.decCount + 1#4 := by
  simp [nextDecCount, keepsRecord, h]

/-! ### The offer (R125, R126) -/

theorem reachesWatermark_eq (q q' : ResultQueue) : reachesWatermark q q' =
    decide (q.watermark ≠ 0#5 ∧ q.rqrecs < q.watermark.toNat ∧ q.watermark.toNat ≤ q'.rqrecs) := by
  rw [Bool.eq_iff_iff]
  simp [reachesWatermark, and_assoc]

variable {s : State}

/-- The Scheduler's part of a delivery leaves the Result Queue and its latches as the measuring blocks left them. -/
theorem deliverResult_queue (r : ConvResult) (s : State) : (deliverResult r s).rq = (measured r s).rq ∧
    (deliverResult r s).sysLatch.qover = (measured r s).sysLatch.qover ∧
    (deliverResult r s).sysLatch.qready = (measured r s).sysLatch.qready := by
  rw [deliverResult_eq, schedulerPart_frame]
  exact ⟨rfl, rfl, rfl⟩

/-- The two counts of the Record Builder in the delivering task's record after a delivery. -/
theorem deliverResult_counts {r : ConvResult} (hl : (s.task r.slot).cfg.link ≠ some r.slot) :
    ((deliverResult r s).task r.slot).rt.decCount = nextDecCount (s.task r.slot) ∧
    ((deliverResult r s).task r.slot).rt.missCount =
      if keepsRecord (s.task r.slot) (windowOutcome (s.task r.slot) r).fired then 0#8
      else (s.task r.slot).rt.missCount := by
  rw [deliverResult_task_self hl]
  exact ⟨rfl, rfl⟩

/-- A delivery stores the outcome that its record is composed from (R95, R107). -/
theorem deliverResult_composed {r : ConvResult} (hl : (s.task r.slot).cfg.link ≠ some r.slot) :
    let t0 := s.task r.slot
    let x := ((deliverResult r s).task r.slot).rt
    x.lastFired = (windowOutcome t0 r).fired ∧
    composeRecord t0 s.tickCount (windowOutcome t0 r) =
      { slot := r.slot, zone := x.zone, evt := x.lastFired, overFlag := x.lastOver, gain := x.gain
        res := r.res, code := x.lastCode
        stamp := if t0.cfg.stamp then some s.tickCount else none
        miss := if t0.rt.missCount = 0#8 then none else some t0.rt.missCount } := by
  rw [deliverResult_task_self hl]
  exact ⟨rfl, rfl⟩

/-- Settles O42: the record is composed from what the Window Monitor stores, and the decision gives the two cases. -/
theorem deliveryOffersRecord : Obligations.DeliveryOffersRecord := by
  intro s c code o hr hc hp ha hl
  obtain ⟨r, hexec, hslot, -, hres, -⟩ := exec_delivery_result hr hc hp ha code o
  rw [← hslot] at hl
  obtain ⟨hfired, hrecord⟩ := deliverResult_composed hl
  obtain ⟨hdec, hmiss⟩ := deliverResult_counts hl
  obtain ⟨hrq, hqover, hqready⟩ := deliverResult_queue r s
  refine ⟨_, hexec, ?_⟩
  dsimp only
  rw [← hslot, ← hres, ← hrecord, hfired, ← keepsRecord_iff, hdec, hmiss, hrq, hqover, hqready]
  refine ⟨nextDecCount_other, fun hn hk => ?_, fun hn hk => ?_, fun hk => ?_, fun hk => ?_⟩
  · rw [nextDecCount_everyN hn, if_pos hk]
  · rw [nextDecCount_everyN hn, if_neg hk]
  · obtain ⟨hq, hover, hready⟩ := measured_kept r s hk
    rw [hover, hready, reachesWatermark_eq, hq]
    exact ⟨rfl, if_pos hk, fun hstore => by simp [hstore], fun hlost => by simp [hlost], rfl⟩
  · obtain ⟨hq, hlatch⟩ := measured_not_kept r s (Bool.eq_false_of_not_eq_true hk)
    rw [hq, hlatch]
    exact ⟨rfl, if_neg hk, rfl, rfl⟩

/-! ### The bytes of a stored record (R111, R113) -/

theorem RecordBody.header_toNat (b : RecordBody) :
    b.header.toNat = 64 + 32 * b.stamp.isSome.toNat + 16 * b.miss.isSome.toNat + b.slot.val := by
  simp only [RecordBody.header, append_toNat, BitVec.toNat_ofBool, BitVec.toNat_ofFin, BitVec.toNat_ofNat]
  omega

theorem RecordBody.flags_toNat (b : RecordBody) : b.flags.toNat =
    64 * b.zone.enc.toNat + 32 * b.evt.toNat + 16 * b.overFlag.toNat + 4 * b.gain.enc.toNat + b.res.enc.toNat := by
  simp only [RecordBody.flags, append_toNat, BitVec.toNat_ofBool]
  omega

/-- The presence bit of an optional part, at its weight. -/
theorem weight_of_part {α : Type} [DecidableEq α] (k : Nat) (part : Option α) :
    k * part.isSome.toNat = if part = none then 0 else k := by
  cases part <;> simp

theorem RecordBody.length_eq (b : RecordBody) :
    b.length = 5 + (if b.stamp = none then 0 else 2) + (if b.miss = none then 0 else 1) := by
  unfold RecordBody.length
  cases b.stamp <;> cases b.miss <;> rfl

/-- Settles O45: the five fixed bytes from their fields, then the two optional parts in order. -/
theorem recordLayout : Obligations.RecordLayout := by
  refine ⟨fun _ _ => ⟨rfl, rfl⟩, fun seq b => ⟨QRecord.bytes_length _, b.length_eq, b.header, b.flags, hiByte (0#4 ++ b.code),
    loByte (0#4 ++ b.code), stampBytes b.stamp ++ missBytes b.miss, rfl, ?_, b.flags_toNat.trans ?_, ?_, ?_, ?_, ?_, ?_⟩⟩
  · rw [b.header_toNat, weight_of_part, weight_of_part]
  · cases b.zone <;> cases b.gain <;> cases b.res <;> rfl
  · exact (hiByte_loByte_toNat _).trans (zeros_append_toNat (m := 4) b.code)
  · exact fun w m hw hm => ⟨hiByte w, loByte w, by rw [hw, hm]; rfl, hiByte_loByte_toNat w⟩
  · exact fun w hw hm => ⟨hiByte w, loByte w, by rw [hw, hm]; rfl, hiByte_loByte_toNat w⟩
  · exact fun m hw hm => by rw [hw, hm]; rfl
  · exact fun hw hm => by rw [hw, hm]; rfl

end Sys2Proof.Machine
end

section
/-! SUPPORT. The statements about the Result Queue's insertions and removals: the three courses of an insertion (R119 to
R123), reads of RQDATA, one and a record's worth (R128 to R130), DISCARD and FLUSH (R132, R133). -/

namespace Sys2Proof.Machine

/-! ### Insertions (R119 to R123) -/

/-- The evictions for a need that the whole queue can hold: the fewest oldest records that make room, counted in
LOSTCNT (R122). -/
theorem evictRecords_fewest {need : Nat} (hn : need ≤ 128) (q : ResultQueue) :
    ∃ k, k ≤ q.records.length ∧ need ≤ 128 - bytesOf (q.records.drop k) ∧
      (∀ j, j < k → 128 - bytesOf (q.records.drop j) < need) ∧
      evictRecords need q = { q with records := q.records.drop k, lostcnt := satAdd q.lostcnt k } := by
  obtain ⟨k, hk, hdrop, hfewest, -⟩ := evictUntil_eq_drop need q.records
  have hroom := evictUntil_room hn q.records
  have hcount : q.records.length - (q.records.length - k) = k := by omega
  rw [hdrop] at hroom
  exact ⟨k, hk, hroom, hfewest, by rw [evictRecords, hdrop, List.length_drop, hcount]⟩

/-- Settles O46: the course decides which clause speaks; under an eviction at least one record goes, for the record did not
fit at first. -/
theorem insertionStoresEvictsOrDrops : Obligations.InsertionStoresEvictsOrDrops := by
  intro q b _
  rcases insertRecord_cases q b with ⟨hfit, -, e⟩ | ⟨hfull, hpol, hclosed, -, e⟩ | ⟨hfull, hdrop, -, e⟩
  · refine ⟨fun _ => ?_, fun hnot => absurd hfit hnot, fun hnot => absurd hfit hnot⟩
    rw [e, storeRecord_eq]
    exact ⟨⟨rfl, rfl, rfl, rfl, rfl, rfl⟩, rfl⟩
  · refine ⟨fun hfit => absurd hfit (Nat.not_le.2 hfull), fun _ _ _ => ?_, fun _ hdrop => ?_⟩
    · have hneed := (neededSpace_bounds q b).2
      obtain ⟨k, hk, hroom, hfewest, hevict⟩ := evictRecords_fewest (need := neededSpace q b) (by omega) q
      have hpos : 0 < k := Nat.pos_of_ne_zero fun h0 => by
        subst h0
        exact absurd hroom (Nat.not_le.2 hfull)
      rw [e, hevict, storeRecord_eq]
      exact ⟨k, hpos, hk, ⟨rfl, rfl, rfl, rfl, rfl, rfl⟩, hroom, hfewest, satAdd_toNat _ _⟩
    · exact absurd hdrop (by simp [hpol, hclosed])
  · exact ⟨fun hfit => absurd hfit (Nat.not_le.2 hfull), fun _ hpol hclosed => absurd hdrop (by simp [hpol, hclosed]),
      fun _ _ => e.trans (by rw [dropRecord, satInc_eq, satInc_eq])⟩

/-! ### One read of RQDATA (R128 to R130) -/

theorem QRecord.exists_byte (r : QRecord) {i : Nat} (h : i < r.length) : ∃ b, r.bytes[i]? = some b :=
  ⟨_, List.getElem?_eq_getElem (by rwa [r.bytes_length])⟩

section

variable {q : ResultQueue} {r : QRecord} {rs : List QRecord} {b : Byte}

/-- The byte of RQDATA is the oldest record's at the read index, its first while it is not open. -/
theorem rqdataByte_stored (hrec : q.records = r :: rs) (hb : r.bytes[q.readIndex.getD 0]? = some b) :
    rqdataByte q = b := by
  simp only [rqdataByte, hrec, List.getD_eq_getElem?_getD, hb, Option.getD_some]

variable {s : State}

theorem exec_rqdataRead_empty (h : Ready s) (hrec : s.rq.records = []) : exec .rqdataRead s =
    .next { s with sysLatch := { s.sysLatch with qunder := true }, dataOut := some 0xFF#8 } := by
  have hbyte : readRegister 0x07#5 s = 0xFF#8 := by
    show rqdataByte s.rq = _
    simp only [rqdataByte, hrec]
  rw [exec_rqdataRead_ready h, hbyte, rqdataEffect, if_pos (by simp [hrec])]
  rfl

theorem exec_rqdataRead_stored (h : Ready s) (hrec : s.rq.records = r :: rs)
    (hb : r.bytes[s.rq.readIndex.getD 0]? = some b) :
    exec .rqdataRead s = .next { s with rq := advanceRead s.rq, dataOut := some b } := by
  have hbyte : readRegister 0x07#5 s = b := rqdataByte_stored hrec hb
  rw [exec_rqdataRead_ready h, hbyte, rqdataEffect, if_neg (by simp [hrec])]
  rfl

end

/-- Settles O47: the byte is that at the read index, and the queue advances as its own lemmas say. -/
theorem rqdataReadOpensAdvancesRetires : Obligations.RqdataReadOpensAdvancesRetires := by
  intro s h
  refine ⟨fun hrec _ => exec_rqdataRead_empty h hrec, fun r rs hrec hi => ?_, fun r rs i b hrec hi hb => ?_⟩
  · obtain ⟨b, hb⟩ := r.exists_byte (i := 0) (by have := r.length_bounds; omega)
    refine ⟨b, by rw [List.head?_eq_getElem?, hb], ?_⟩
    rw [exec_rqdataRead_stored h hrec (by rw [hi]; exact hb), advanceRead_open hrec hi]
  · rw [exec_rqdataRead_stored h hrec (by rw [hi]; exact hb), r.bytes_length]
    exact ⟨fun hlt => by rw [advanceRead_next hrec hi hlt], fun hlast => by rw [advanceRead_retire hrec hi hlast.ge]⟩

/-! ### Reading a record to its end (R128, R129) -/

/-- A list of commands and then one more. -/
theorem runCommands_concat {cs : List Instr} {c : Instr} {s t : State} (h : runCommands cs s = .next t) :
    runCommands (cs ++ [c]) s = exec c t := by
  induction cs generalizing s with
  | nil =>
    obtain rfl : s = t := Host.Outcome.next.inj h
    show runCommands [c] s = exec c s
    simp only [runCommands]
    cases exec c s <;> rfl
  | cons d ds ih =>
    cases hd : exec d s with
    | next u =>
      rw [runCommands_cons hd] at h
      rw [List.cons_append, runCommands_cons hd, ih h]
    | fault f => simp [runCommands, hd] at h
    | refused f => simp [runCommands, hd] at h

/-- The queue after i bytes of the oldest record were read, none of them its last. -/
def ResultQueue.readTo (q : ResultQueue) (i : Nat) : ResultQueue :=
  { q with readIndex := if i = 0 then none else some i }

theorem ResultQueue.readTo_getD (q : ResultQueue) (i : Nat) : (q.readTo i).readIndex.getD 0 = i := by
  cases i <;> rfl

section

variable {q : ResultQueue} {r : QRecord} {rs : List QRecord}

theorem ResultQueue.readTo_zero (hi : q.readIndex = none) : q.readTo 0 = q := by
  simp [ResultQueue.readTo, ← hi]

theorem advanceRead_readTo (hrec : q.records = r :: rs) {i : Nat} (hl : i + 1 < r.length) :
    advanceRead (q.readTo i) = q.readTo (i + 1) := by
  cases i with
  | zero => exact advanceRead_open (q := q.readTo 0) hrec rfl
  | succ i => exact advanceRead_next (q := q.readTo (i + 1)) hrec rfl hl

theorem advanceRead_readTo_last (hrec : q.records = r :: rs) {i : Nat} (hl : i + 1 = r.length) :
    advanceRead (q.readTo i) = { q with records := rs, readIndex := none } := by
  cases i with
  | zero => have := r.length_bounds; omega
  | succ i => exact advanceRead_retire (q := q.readTo (i + 1)) hrec rfl hl.ge

variable {s : State}

/-- One read more, after reads that left the queue at byte i. -/
theorem run_rqdataReads_succ (h : Ready s) (hrec : s.rq.records = r :: rs) {i : Nat} {b : Byte} {d : Option Byte}
    (hb : r.bytes[i]? = some b)
    (hrun : runCommands (List.replicate i .rqdataRead) s = .next { s with rq := s.rq.readTo i, dataOut := d }) :
    runCommands (List.replicate (i + 1) .rqdataRead) s =
      .next { s with rq := advanceRead (s.rq.readTo i), dataOut := some b } := by
  rw [List.replicate_succ', runCommands_concat hrun]
  exact exec_rqdataRead_stored (s := { s with rq := s.rq.readTo i, dataOut := d }) h hrec
    (by rw [ResultQueue.readTo_getD]; exact hb)

/-- Fewer reads than the oldest record has bytes leave the part as it was, but for the read index and the data lines. -/
theorem run_rqdataReads (h : Ready s) (hrec : s.rq.records = r :: rs) (hi : s.rq.readIndex = none) {i : Nat}
    (hl : i < r.length) : ∃ d, runCommands (List.replicate i .rqdataRead) s =
      .next { s with rq := s.rq.readTo i, dataOut := d } := by
  induction i with
  | zero => exact ⟨s.dataOut, by rw [ResultQueue.readTo_zero hi]; rfl⟩
  | succ i ih =>
    obtain ⟨d, hrun⟩ := ih (by omega)
    obtain ⟨b, hb⟩ := r.exists_byte (i := i) (by omega)
    exact ⟨some b, by rw [run_rqdataReads_succ h hrec hb hrun, advanceRead_readTo hrec hl]⟩

end

/-- Settles O48: k reads bring the read index to byte k, the next one returns that byte, and the read of the last byte
retires the record. -/
theorem readingARecordReturnsItsBytes : Obligations.ReadingARecordReturnsItsBytes := by
  intro s r rs h hrec hi
  refine ⟨fun k b hb => ?_, ?_⟩
  · obtain ⟨hk, -⟩ := List.getElem?_eq_some_iff.1 hb
    obtain ⟨d, hrun⟩ := run_rqdataReads h hrec hi (r.bytes_length ▸ hk)
    exact ⟨_, run_rqdataReads_succ h hrec hb hrun, rfl⟩
  · obtain ⟨k, hk⟩ : ∃ k, k + 1 = r.length := ⟨r.length - 1, by have := r.length_bounds; omega⟩
    obtain ⟨d, hrun⟩ := run_rqdataReads h hrec hi (i := k) (by omega)
    obtain ⟨b, hb⟩ := r.exists_byte (i := k) (by omega)
    rw [← hk, run_rqdataReads_succ h hrec hb hrun, advanceRead_readTo_last hrec hk, ← hi]
    exact ⟨_, rfl, rfl⟩

/-! ### DISCARD and FLUSH (R132, R133) -/

/-- Settles O49: DISCARD by whether a record is stored, FLUSH in every case. -/
theorem discardAndFlushRemoveRecords : Obligations.DiscardAndFlushRemoveRecords := by
  intro s h
  refine ⟨fun r rs hrec => ?_, fun hrec => ?_, exec_flush_ready h⟩
  · have hremove : removeOldest s.rq = { s.rq with records := rs, readIndex := none } := by
      simp only [removeOldest, hrec, List.drop_succ_cons, List.drop_zero]
    rw [exec_discard_ready h, discardEffect, if_neg (by simp [hrec]), State.setDataOut_rq, hremove]
    rfl
  · rw [exec_discard_ready h, discardEffect, if_pos (by simp [hrec])]
    rfl

end Sys2Proof.Machine
end

section
/-! SUPPORT. The latches bit by bit: what a read returns, what it clears, and when IRQ# is low (R139 to R147). -/

namespace Sys2Proof.Machine

variable {s : State}

/-! ### The latches bit by bit (R139, R143, R144) -/

/-- A word is not zero exactly when one of its bits is 1. -/
theorem bne_zero_iff_exists_bit {k : Nat} (w : BitVec k) : (w != 0#k) = true ↔ ∃ i : Fin k, w.getLsbD i.val = true := by
  rw [bne_iff_ne]
  constructor
  · intro hw
    have hbit := BitVec.getLsbD_true_ctz_of_ne_zero hw
    exact ⟨⟨_, BitVec.lt_of_getLsbD hbit⟩, hbit⟩
  · rintro ⟨i, hi⟩ rfl
    simp at hi

/-- TSUM is 1 exactly when some task latch is (R143). -/
theorem tsum_iff : tsum s = true ↔ ∃ n : Slot, s.taskLatch.getLsbD n.val = true := bne_zero_iff_exists_bit _

/-- Bits 0 to 6 of SLAT are the system latches (R139, R144). -/
theorem slatByte_getLsbD {i : Nat} (h : i < 7) : (slatByte s).getLsbD i = s.sysLatch.bits.getLsbD i :=
  BitVec.getLsbD_append.trans (if_pos h)

/-- Bit 7 of SLAT is TSUM (R143). -/
theorem slatByte_getLsbD_seven : (slatByte s).getLsbD 7 = tsum s :=
  BitVec.getLsbD_append.trans (by simp)

/-- What a read of TLATL that returned b leaves: its bits stand for slots 0 to 7 (R139, R144). -/
theorem clear_tlatl_getLsbD (w : Word16) (b : Byte) (n : Slot) : (w &&& ~~~ latchMask .tlatl b).getLsbD n.val =
    (w.getLsbD n.val && !(decide (n.val < 8) && b.getLsbD n.val)) := by
  have hmask : (latchMask .tlatl b).getLsbD n.val = (decide (n.val < 8) && b.getLsbD n.val) := by
    refine (joinBytes_getLsbD 0#8 b n.val).trans ?_
    by_cases h : n.val < 8 <;> simp [h]
  rw [BitVec.getLsbD_and, BitVec.getLsbD_not, hmask, decide_eq_true n.isLt, Bool.true_and]

/-- What a read of TLATH that returned b leaves: its bits stand for slots 8 to 15 (R139, R144). -/
theorem clear_tlath_getLsbD (w : Word16) (b : Byte) (n : Slot) : (w &&& ~~~ latchMask .tlath b).getLsbD n.val =
    (w.getLsbD n.val && !(decide (8 ≤ n.val) && b.getLsbD (n.val - 8))) := by
  have hmask : (latchMask .tlath b).getLsbD n.val = (decide (8 ≤ n.val) && b.getLsbD (n.val - 8)) := by
    refine (joinBytes_getLsbD b 0#8 n.val).trans ?_
    by_cases h : n.val < 8
    · simp [h]
    · simp [h, Nat.le_of_not_lt h]
  rw [BitVec.getLsbD_and, BitVec.getLsbD_not, hmask, decide_eq_true n.isLt, Bool.true_and]

/-! ### The clearing reads of a ready part (R124, R144) -/

theorem exec_slatRead_clears (h : Ready s) :
    exec .slatRead s = .next { s with sysLatch := noSysLatches, dataOut := some (slatByte s) } := by
  have hclear : s.sysLatch.clear (slatByte s) = noSysLatches := s.sysLatch.clear_returned (tsum s)
  rw [← hclear]
  exact exec_slatRead_ready h

theorem exec_tlatlRead_clears (h : Ready s) : exec (.taskLatchRead .tlatl) s = .next { s with
    taskLatch := s.taskLatch &&& ~~~ latchMask .tlatl (loByte s.taskLatch), dataOut := some (loByte s.taskLatch) } :=
  exec_taskLatchRead_ready h .tlatl

theorem exec_tlathRead_clears (h : Ready s) : exec (.taskLatchRead .tlath) s = .next { s with
    taskLatch := s.taskLatch &&& ~~~ latchMask .tlath (hiByte s.taskLatch), dataOut := some (hiByte s.taskLatch) } :=
  exec_taskLatchRead_ready h .tlath

/-- Settles O50, register by register: a latch returned as 1 is cleared, and one returned as 0 was 0 already. -/
theorem clearingReadsReturnAndClear : Obligations.ClearingReadsReturnAndClear := by
  intro s h
  refine ⟨⟨_, _, exec_tlatlRead_clears h, fun n => ⟨fun hlo => ?_, fun hhi => ?_⟩⟩,
    ⟨_, _, exec_tlathRead_clears h, fun n => ⟨fun hhi => ?_, fun hlo => ?_⟩⟩,
    ⟨_, exec_slatRead_clears h, ?_⟩, exec_lostcntRead_ready h⟩
  · rw [clear_tlatl_getLsbD, loByte_getLsbD _ hlo]
    simp [hlo]
  · rw [clear_tlatl_getLsbD]
    simp [Nat.not_lt.2 hhi]
  · rw [clear_tlath_getLsbD, hiByte_getLsbD _ (by omega), Nat.add_sub_cancel' hhi]
    simp [hhi]
  · rw [clear_tlath_getLsbD]
    simp [Nat.not_le.2 hlo]
  · obtain ⟨h0, h1, h2, h3, h4, h5, h6⟩ := s.sysLatch.bits_getLsbD
    simp only [slatByte_getLsbD, slatByte_getLsbD_seven, tsum_iff, Nat.reduceLT, h0, h1, h2, h3, h4, h5, h6, and_self]

/-! ### IRQ# (R146, L8) -/

/-- Some enabled system latch is 1 (R146); bit 7 of SEN has no part. -/
theorem sysLatch_enabled_iff (l : SysLatches) (e : Byte) : (l.bits &&& e.extractLsb' 0 7 != 0#7) = true ↔
    (l.qready = true ∧ e.getLsbD 0 = true) ∨ (l.qover = true ∧ e.getLsbD 1 = true) ∨
    (l.qunder = true ∧ e.getLsbD 2 = true) ∨ (l.miss = true ∧ e.getLsbD 3 = true) ∨
    (l.abort = true ∧ e.getLsbD 4 = true) ∨ (l.halted = true ∧ e.getLsbD 5 = true) ∨
    (l.cmderr = true ∧ e.getLsbD 6 = true) := by
  obtain ⟨h0, h1, h2, h3, h4, h5, h6⟩ := l.bits_getLsbD
  have hbit (i : Fin 7) : (l.bits &&& e.extractLsb' 0 7).getLsbD i.val = (l.bits.getLsbD i.val && e.getLsbD i.val) := by
    simp
  simp only [bne_zero_iff_exists_bit, hbit, Bool.and_eq_true]
  simp [Fin.exists_fin_succ, ← h0, ← h1, ← h2, ← h3, ← h4, ← h5, ← h6]

/-- Settles O51: IRQ# looks at the task latches and at the system latches, each with its enables. -/
theorem irqLowExactlyOnEnabledLatch : Obligations.IrqLowExactlyOnEnabledLatch := by
  intro s h
  have htask : (s.taskLatch &&& s.taskEnable != 0#16) = true ↔
      ∃ n : Slot, s.taskLatch.getLsbD n.val = true ∧ s.taskEnable.getLsbD n.val = true := by
    simp only [bne_zero_iff_exists_bit, BitVec.getLsbD_and, Bool.and_eq_true]
  rw [irqLow, h, Bool.not_false, Bool.true_and, Bool.or_eq_true, htask, sysLatch_enabled_iff]

end Sys2Proof.Machine
end

section
/-! SUPPORT. What CLK running again does with the accesses that waited (R164). -/

namespace Sys2Proof.Machine

variable {s : State}

/-! ### Every access of a ready part is its change (R151, R154) -/

/-- A write of a ready part makes its change, with D7 to D0 not driven. -/
theorem exec_write_ready (h : Ready s) {i : Instr} {a : Addr} {v : Byte} (hw : i.wellFormed = true)
    (he : encodeWrite i = some (a, v)) : exec i s = .next (accessEffect i 0#8 (s.setDataOut none)) := by
  cases i with
  | load => exact exec_load_ready h
  | commit => exact exec_commit_ready h
  | start => exact exec_start_ready h
  | stop => exact exec_stop_ready h
  | trigger => exact exec_trigger_ready h
  | halt => exact exec_halt_ready h
  | resume => exact exec_resume_ready h
  | flush => exact exec_flush_ready h
  | discard => exact exec_discard_ready h
  | reset trig => exact exec_reset_ready h trig
  | badCmd code => exact exec_badCmd_ready h hw
  | stofsWrite v => exact exec_stofsWrite_ready h v
  | stdataWrite v => exact exec_stdataWrite_ready h v
  | registerWrite a v => exact exec_registerWrite_ready h (fun _ => hw) v
  | _ => exact absurd he nofun

/-- Only the change of a latch read turns on the byte that the read returned (R144). -/
theorem accessEffect_any_byte {i : Instr} (hslat : i ≠ .slatRead) (htask : ∀ half, i ≠ .taskLatchRead half) (b c : Byte) :
    accessEffect i b s = accessEffect i c s := by
  cases i with
  | slatRead => exact absurd rfl hslat
  | taskLatchRead half => exact absurd rfl (htask half)
  | _ => rfl

/-- A write, or a read of another register than the latches, makes the change it would make had it returned any other byte,
but for the data lines. -/
theorem exec_nonLatch_ready (h : Ready s) {i : Instr} (hi : i = .stdataRead ∨ i = .rqdataRead ∨ i = .lostcntRead ∨
    i = .ticklRead ∨ (i.wellFormed = true ∧ ∃ a v, encodeWrite i = some (a, v))) (b : Byte) :
    ∃ d, exec i s = .next ((accessEffect i b s).setDataOut d) := by
  rcases hi with rfl | rfl | rfl | rfl | ⟨hw, a, v, he⟩
  · exact ⟨_, exec_stdataRead_ready h⟩
  · exact ⟨_, (exec_rqdataRead_ready h).trans (congrArg _ (accessEffect_setDataOut s _ .rqdataRead b))⟩
  · exact ⟨_, exec_lostcntRead_ready h⟩
  · exact ⟨_, exec_ticklRead_ready h⟩
  · have hbyte : accessEffect i 0#8 s = accessEffect i b s :=
      accessEffect_any_byte (by rintro rfl; cases he) (by rintro half rfl; cases he) 0#8 b
    exact ⟨none, by rw [exec_write_ready h hw he, accessEffect_setDataOut, hbyte]⟩

/-! ### CLK runs again (R164) -/

/-- The part as CLK finds it when it runs again, before the changes that waited. -/
def resumed (s : State) : State := { s with clkRunning := true, waiting := [] }

theorem exec_clkRunsAgain : exec .clkRunsAgain s = .next (makeWaiting s.waiting (resumed s)) := rfl

/-- One access that waited makes its change on the part as CLK finds it. -/
theorem exec_clkRunsAgain_one {i : Instr} {b : Byte} (h : s.waiting = [{ access := i, returned := b }]) :
    exec .clkRunsAgain s = .next (accessEffect i b (resumed s)) := by
  rw [exec_clkRunsAgain, h]
  rfl

/-- The change of an access that waited leaves CLK running and nothing waiting. -/
theorem accessEffect_resumed (i : Instr) (b : Byte) :
    (accessEffect i b (resumed s)).clkRunning = true ∧ (accessEffect i b (resumed s)).waiting = [] :=
  ⟨(sameBus_accessEffect (resumed s) i b).clk, (sameBus_accessEffect (resumed s) i b).waiting⟩

/-- A part with CLK running and nothing waiting is as CLK finds it. -/
theorem resumed_of_running {t : State} (hc : t.clkRunning = true) (hw : t.waiting = []) (ws : List WaitingAccess) :
    resumed { t with waiting := ws } = t := by
  rw [resumed, ← hc, ← hw]

/-- Settles O13: the first clauses are the change of the one access that waited, the last splits the list after its first
access. -/
theorem waitingLatchReadClearsWhatItReturned : Obligations.WaitingLatchReadClearsWhatItReturned := by
  refine ⟨fun s h => ?_, fun s b h => exec_clkRunsAgain_one h,
    fun s b h => ⟨_, exec_clkRunsAgain_one h, clear_tlatl_getLsbD _ b⟩,
    fun s b h => ⟨_, exec_clkRunsAgain_one h, clear_tlath_getLsbD _ b⟩, fun s i b hheld h hi => ?_, fun s w ws h => ?_⟩
  · rw [exec_clkRunsAgain, resumed, h]
    rfl
  · have hready : Ready (resumed s) := ⟨hheld, rfl⟩
    have hlines : (accessEffect i b (resumed s)).dataOut = s.dataOut := (sameBus_accessEffect (resumed s) i b).dataOut
    obtain ⟨d, hexec⟩ := exec_nonLatch_ready hready hi b
    refine ⟨_, hexec, ?_⟩
    rw [exec_clkRunsAgain_one h, ← hlines]
    rfl
  · obtain ⟨hclk, hwait⟩ := accessEffect_resumed (s := s) w.access w.returned
    refine ⟨_, exec_clkRunsAgain_one (s := { s with waiting := [w] }) rfl, hclk, hwait, ?_⟩
    calc exec .clkRunsAgain s
        = .next (makeWaiting ws (accessEffect w.access w.returned (resumed s))) := by rw [exec_clkRunsAgain, h]; rfl
      _ = exec .clkRunsAgain { accessEffect w.access w.returned (resumed s) with waiting := ws } := by
        rw [exec_clkRunsAgain, resumed_of_running hclk hwait]

end Sys2Proof.Machine
end

section
/-! SUPPORT. How each command of the table is taken: as a bus write, a bus read, an event of the part, a pulse on RES#, a CLK
row or VCC (R151, R161, R164). -/

namespace Sys2Proof.Machine

variable {i : Instr} {s : State} {a : Addr} {v : Byte} {f : State → State}

/-- The effect of an event of the part or an edge on TRIG; none for a command of another kind. -/
def eventEffect : Instr → Option (State → State)
  | .trigEdge hold => some (edgeEvent hold)
  | .tick => some tickExpiry
  | .countdownExpiry n => some (expiryOf n)
  | .take => some takeHead
  | .settlingExpiry => some endSettling
  | .coarseConversionEnd c => some (endRanging c)
  | .sample code o => some (takeSample code o)
  | .delivery code o => some (completeConversion code o)
  | _ => none

/-- The kinds of commands. -/
inductive CommandKind (i : Instr) : Prop where
  | write {a : Addr} {v : Byte} (h : encodeWrite i = some (a, v))
  | read {a : Addr} (h : encodeRead i = some a)
  | event {f : State → State} (h : eventEffect i = some f)
  | resPulse (w : ResWidth) (l : Level) (h : i = .powerOnReset w l)
  | clkStop (h : i = .clkStop)
  | clkRunsAgain (h : i = .clkRunsAgain)
  | vccApplied (h : i = .vccApplied)

/-- Every command is of one of the kinds. -/
theorem commandKind (i : Instr) : CommandKind i := by
  cases i with
  | load | commit | start | stop | trigger | halt | resume | flush | discard | reset | badCmd | stofsWrite | stdataWrite
  | registerWrite => exact .write rfl
  | stdataRead | rqdataRead | lostcntRead | slatRead | ticklRead => exact .read rfl
  | taskLatchRead half => cases half <;> exact .read rfl
  | trigEdge | tick | countdownExpiry | take | settlingExpiry | coarseConversionEnd | sample | delivery => exact .event rfl
  | powerOnReset w l => exact .resPulse w l rfl
  | clkStop => exact .clkStop rfl
  | clkRunsAgain => exact .clkRunsAgain rfl
  | vccApplied => exact .vccApplied rfl

/-! ### The command of each kind -/

/-- A bus write is taken as R151, R161 and R164 say of a write, with the change of its access. -/
theorem exec_write (s : State) (hw : i.wellFormed = true) (he : encodeWrite i = some (a, v)) :
    exec i s = .next (takeWrite i (accessEffect i 0#8) s) := by
  cases i with
  | badCmd code => exact if_pos hw
  | registerWrite b w => exact if_pos hw
  | load | commit | start | stop | trigger | halt | resume | flush | discard | reset | stofsWrite | stdataWrite => rfl
  | _ => exact absurd he nofun

/-- A bus read is taken as R151, R161 and R164 say of a read, with its register's value and the change of its access. -/
theorem exec_read (s : State) (he : encodeRead i = some a) :
    exec i s = .next (takeRead i (readRegister a) (accessEffect i) s) := by
  cases i with
  | stdataRead | rqdataRead | lostcntRead | slatRead | ticklRead => cases he; rfl
  | taskLatchRead half => cases half <;> cases he <;> rfl
  | _ => exact absurd he nofun

/-- An event of the part, or an edge on TRIG, is taken as R161 and R164 say of an event. -/
theorem exec_event (s : State) (h : eventEffect i = some f) : exec i s = .next (takeEvent f s) := by
  cases i with
  | trigEdge | tick | countdownExpiry | take | settlingExpiry | coarseConversionEnd | sample | delivery => cases h; rfl
  | _ => exact absurd h nofun

/-- A term that is no command of its row is refused by name. -/
theorem exec_illFormed (s : State) (hw : i.wellFormed = false) : exec i s = .refused .illFormed := by
  cases i with
  | badCmd code => exact if_neg (ne_true_of_eq_false hw)
  | registerWrite b w => exact if_neg (ne_true_of_eq_false hw)
  | _ => exact absurd hw nofun

/-! ### The queue of commands -/

theorem countdownStep_pending (s : State) (n : Slot) : (countdownStep s n).pending = s.pending := by
  rw [countdownStep_frame]

theorem tickExpiry_pending (s : State) : (tickExpiry s).pending = s.pending := by
  by_cases h : s.runState = .running
  · rw [tickExpiry_running s h]
    exact moveCountdowns_keeps _ (P := fun t => t.pending = s.pending)
      (fun t n ht => (countdownStep_pending t n).trans ht) rfl
  · rw [tickExpiry_halted s h]

theorem recognisedEdge_pending (s : State) : (recognisedEdge s).pending = s.pending :=
  recognisedEdge_keeps s (P := fun t => t.pending = s.pending) (fun t n ht => (makeDue_pending t .normal n).trans ht) rfl

theorem edgeEvent_pending (hold : TrigHold) (s : State) : (edgeEvent hold s).pending = s.pending := by
  cases hold with
  | full => exact recognisedEdge_pending s
  | short =>
    simp only [edgeEvent]
    split
    · exact recognisedEdge_pending _
    · rfl

theorem takeHead_pending (s : State) : (takeHead s).pending = s.pending := by
  unfold takeHead
  split <;> rfl

theorem completeConversion_pending (code : BitVec 12) (o : Bool) (s : State) :
    (completeConversion code o s).pending = s.pending := by
  unfold completeConversion
  split
  · split
    · rw [deliverResult_frame]
    · rfl
  · rfl

/-- No event of the part touches the queue of commands. -/
theorem eventEffect_pending (s : State) (h : eventEffect i = some f) : (f s).pending = s.pending := by
  cases i with
  | trigEdge hold => cases h; exact edgeEvent_pending hold s
  | tick => cases h; exact tickExpiry_pending s
  | countdownExpiry n =>
    cases h
    unfold expiryOf
    split
    · exact tickExpiry_pending s
    · rfl
  | take => cases h; exact takeHead_pending s
  | settlingExpiry => cases h; rw [endSettling_setConv, State.setConv_pending]
  | coarseConversionEnd c => cases h; rw [endRanging_setConv, State.setConv_pending]
  | sample code o => cases h; rw [takeSample_setConv, State.setConv_pending]
  | delivery code o => cases h; exact completeConversion_pending code o s
  | _ => exact absurd h nofun

theorem resPulse_pending (w : ResWidth) (l : Level) (s : State) : (resPulse w l s).pending = s.pending := by
  have hdraw : ∀ d : Bool, (if d then { s with freeCount := s.freeCount + 1 } else s).pending = s.pending := by
    intro d
    cases d <;> rfl
  simp only [resPulse]
  split
  · exact hdraw _
  · exact hdraw _

theorem makeWaiting_pending (ws : List WaitingAccess) (s : State) : (makeWaiting ws s).pending = s.pending := by
  induction ws generalizing s with
  | nil => rfl
  | cons w ws ih => exact (ih _).trans (sameBus_accessEffect s w.access w.returned).pending

/-- Every command of the table completes from every state, and leaves the queue of commands alone (R151). -/
theorem exec_completes (s : State) (hw : i.wellFormed = true) : ∃ t, exec i s = .next t ∧ t.pending = s.pending := by
  cases commandKind i with
  | write h =>
    refine ⟨_, exec_write s hw h, ?_⟩
    rcases takeWrite_cases s i (accessEffect i 0#8) with e | ⟨_, e⟩ <;> rw [e]
    exact (sameBus_accessEffect _ i 0#8).pending
  | read h =>
    refine ⟨_, exec_read s h, ?_⟩
    rcases takeRead_cases s i (readRegister _) (accessEffect i) with e | ⟨_, _, e⟩ <;> rw [e]
    exact (sameBus_accessEffect _ i _).pending
  | event h =>
    refine ⟨_, exec_event s h, ?_⟩
    rcases takeEvent_cases s _ with e | e <;> rw [e]
    exact eventEffect_pending s h
  | resPulse w l h => subst h; exact ⟨_, rfl, resPulse_pending w l s⟩
  | clkStop h => subst h; exact ⟨_, rfl, rfl⟩
  | clkRunsAgain h => subst h; exact ⟨_, rfl, makeWaiting_pending s.waiting _⟩
  | vccApplied h => subst h; exact ⟨_, rfl, rfl⟩

/-- Settles O2, kind of command by kind of command. -/
theorem commandsCompleteExactlyWhenWellFormed : Obligations.CommandsCompleteExactlyWhenWellFormed :=
  fun _ s => ⟨exec_completes s, exec_illFormed s⟩

/-- Settles O1: the queue's front decides the step. -/
theorem stepTakesFrontCommand : Obligations.StepTakesFrontCommand := by
  refine ⟨fun c rest s => rfl, fun s h => ?_⟩
  simp only [step, h]

/-! ### The part held in reset and the stopped clock (R161, R164) -/

theorem irqLow_held (h : s.held = true) : irqLow s = false := by simp [irqLow, h]

theorem exec_vccApplied (s : State) : exec .vccApplied s = .next (vccEffect s) := rfl

/-- Settles O10: a held part takes no write, no read and no event, and only a full pulse on RES# ends the hold. -/
theorem vccHoldsThePartInReset : Obligations.VccHoldsThePartInReset := by
  refine ⟨fun s => ⟨_, exec_vccApplied s, rfl, irqLow_held rfl, rfl, rfl⟩, ?_, fun s => irqLow_held⟩
  intro i s hs hw hfull hstop hrun hvcc
  cases commandKind i with
  | write h => exact .inr (by rw [exec_write s hw h, takeWrite_held hs, State.setDataOut])
  | read h => exact .inr (by rw [exec_read s h, takeRead_held hs, State.setDataOut])
  | event h => exact .inl (by rw [exec_event s h, takeEvent_held hs])
  | resPulse w l h =>
    subst h
    left
    cases w with
    | full => exact absurd rfl (hfull l)
    | marginal => exact congrArg Host.Outcome.next (resPulse_marginal_held l s hs)
    | rejected => exact congrArg Host.Outcome.next (resPulse_rejected l s)
  | clkStop h => exact absurd h hstop
  | clkRunsAgain h => exact absurd h hrun
  | vccApplied h => exact absurd h hvcc

/-- Settles O11: a part with CLK stopped takes no event and records every access. -/
theorem stoppedClkMakesAccessesWait : Obligations.StoppedClkMakesAccessesWait := by
  refine ⟨fun s => rfl, fun s hs hc => ⟨fun i hi => ?_, fun i a v hw he => ⟨0#8, ?_⟩, fun i a he => ?_⟩⟩
  · have hevent : ∃ f, eventEffect i = some f := by
      rcases hi with rfl | ⟨n, rfl⟩ | rfl | rfl | ⟨c, rfl⟩ | ⟨c, o, rfl⟩ | ⟨c, o, rfl⟩ | ⟨hold, rfl⟩ <;> exact ⟨_, rfl⟩
    obtain ⟨f, hf⟩ := hevent
    rw [exec_event s hf, takeEvent_stopped hc]
  · rw [exec_write s hw he, takeWrite_stopped hs hc]
  · rw [exec_read s he, takeRead_stopped hs hc]

end Sys2Proof.Machine
end

section
/-! SUPPORT. From bus accesses to commands and back (R152 to R156). -/

namespace Sys2Proof.Machine

/-- A code that is none of R156 decodes to BAD_CMD. -/
theorem decodeCode_badCmd (trig : Level) {code : Byte} (h : code ∉ commandCodes) : decodeCode trig code = .badCmd code := by
  simp only [commandCodes, List.mem_cons, List.not_mem_nil, or_false, not_or] at h
  simp [decodeCode, h]

theorem badCmd_wellFormed_iff (code : Byte) : (Instr.badCmd code).wellFormed = true ↔ code ∉ commandCodes := by
  simp [Instr.wellFormed]

/-- Every code written to CMD is one command of the table, which encodes back to that code (R155, R156). -/
theorem decodeCode_encodes (trig : Level) (code : Byte) :
    (decodeCode trig code).wellFormed = true ∧ encodeWrite (decodeCode trig code) = some (0x00#5, code) := by
  by_cases h : code ∈ commandCodes
  · simp only [commandCodes, List.mem_cons, List.not_mem_nil, or_false] at h
    rcases h with rfl | rfl | rfl | rfl | rfl | rfl | rfl | rfl | rfl | rfl <;> exact ⟨rfl, rfl⟩
  · rw [decodeCode_badCmd trig h]
    exact ⟨(badCmd_wellFormed_iff code).2 h, rfl⟩

/-- A write of any byte to any position is one command of the table, which encodes back to that write. -/
theorem decodeWrite_encodes (trig : Level) (a : Addr) (v : Byte) :
    (decodeWrite trig a v).wellFormed = true ∧ encodeWrite (decodeWrite trig a v) = some (a, v) := by
  unfold decodeWrite
  split_ifs with h0 h5 h6
  · rw [h0]
    exact decodeCode_encodes trig v
  · exact ⟨rfl, by rw [h5]; rfl⟩
  · exact ⟨rfl, by rw [h6]; rfl⟩
  · exact ⟨by simp [Instr.wellFormed, ownedWritePositions, h0, h5, h6], rfl⟩

/-- A write command of the table is what its write decodes to; RESET carries the level of TRIG it is decoded with. -/
theorem decodeWrite_of_encodeWrite {i : Instr} {trig : Level} {a : Addr} {v : Byte} (hw : i.wellFormed = true)
    (he : encodeWrite i = some (a, v)) (hl : ∀ l, i = .reset l → l = trig) : decodeWrite trig a v = i := by
  cases i with
  | badCmd code => cases he; exact decodeCode_badCmd trig ((badCmd_wellFormed_iff _).1 hw)
  | registerWrite b w =>
    cases he
    have hother : a ∉ ownedWritePositions := by simpa [Instr.wellFormed] using hw
    simp only [ownedWritePositions, List.mem_cons, List.not_mem_nil, or_false, not_or] at hother
    simp [decodeWrite, hother]
  | reset l => cases he; rw [hl l rfl]; rfl
  | load | commit | start | stop | trigger | halt | resume | flush | discard | stofsWrite | stdataWrite => cases he; rfl
  | _ => exact absurd he nofun

/-- A read of a position is a command of the table exactly when that command is the read of this position. -/
theorem encodeRead_eq_some_iff (i : Instr) (a : Addr) : encodeRead i = some a ↔ decodeRead a = some i := by
  constructor
  · intro h
    cases i with
    | stdataRead | rqdataRead | lostcntRead | slatRead | ticklRead => cases h; rfl
    | taskLatchRead half => cases half <;> cases h <;> rfl
    | _ => exact absurd h nofun
  · intro h
    unfold decodeRead at h
    split_ifs at h with ha ha ha ha ha ha ha <;> cases h <;> rw [ha] <;> rfl

/-- Settles O3: each direction of the decode is a lemma about its write or its read. -/
theorem busDecodeEncodeAgree : Obligations.BusDecodeEncodeAgree :=
  ⟨decodeWrite_encodes, fun _ _ _ _ => decodeWrite_of_encodeWrite, encodeRead_eq_some_iff⟩

end Sys2Proof.Machine
end

section
/-! SUPPORT. The answers of the command port (R156 to R158). -/

namespace Sys2Proof.Machine

/-- The answer of a command from s: a refusal with a code other than OK, or OK with CMDERR not set by it (R157, R158). -/
inductive Answer (s : State) : State → Prop where
  | refused (c : ResultCode) (h : c ≠ .ok) : Answer s (refuseCmd c s)
  | accepted {t : State} (h : t.sysLatch.cmderr = true → s.sysLatch.cmderr = true) : Answer s (acceptCmd t)

variable (s : State)

theorem answer_onSlot {f : Slot → State → State} (h : ∀ n, Answer s (f n s)) : Answer s (onSlot f s) := by
  rcases onSlot_cases s f with ⟨_, e⟩ | ⟨n, _, e⟩ <;> rw [e]
  · exact .refused .badSlot nofun
  · exact h n

/-! ### What does not set CMDERR -/

theorem makeDue_cmderr (kind : EntryKind) (n : Slot) : (makeDue kind n s).sysLatch.cmderr = s.sysLatch.cmderr := by
  rw [makeDue_frame]

theorem armTask_cmderr (n : Slot) : (armTask n s).sysLatch.cmderr = s.sysLatch.cmderr := by
  unfold armTask
  dsimp only
  split
  · exact makeDue_cmderr _ _ _
  · rfl

theorem giveUpWork_cmderr (n : Slot) : (giveUpWork n s).sysLatch.cmderr = s.sysLatch.cmderr := by
  unfold giveUpWork
  split
  · rfl
  · rw [abandonConversion, endHalt_eq]
    rfl
  · rfl
  · rfl

theorem haltRun_cmderr : (haltRun s).sysLatch.cmderr = s.sysLatch.cmderr := by
  unfold haltRun
  repeat' split
  all_goals rfl

/-! ### The commands -/

theorem answer_commitSlot (n : Slot) : Answer s (commitSlot n s) := by
  unfold commitSlot
  split
  · exact .refused .badField nofun
  · split_ifs
    · exact .refused .badWindow nofun
    · exact .refused .linkLoop nofun
    · exact .refused .locked nofun
    · exact .accepted id

theorem answer_startSlot (n : Slot) : Answer s (startSlot n s) := by
  unfold startSlot
  split
  · exact .accepted (armTask_cmderr s n ▸ id)
  · exact .refused .state nofun

theorem answer_stopSlot (n : Slot) : Answer s (stopSlot n s) := .accepted (giveUpWork_cmderr s n ▸ id)

theorem answer_triggerSlot (n : Slot) : Answer s (triggerSlot n s) := by
  unfold triggerSlot
  split
  · exact .refused .state nofun
  · exact .accepted (makeDue_cmderr s _ n ▸ id)

theorem answer_discard : Answer s (discardEffect s) := by
  unfold discardEffect
  split
  · exact .refused .empty nofun
  · exact .accepted id

/-- RESET answers OK and clears CMDERR (R149, R157). -/
theorem answer_reset (l : Level) : Answer s (resetEffect l s) := by
  have hok : acceptCmd (resetEffect l s) = resetEffect l s := rfl
  have hclear : (resetEffect l s).sysLatch.cmderr = false := rfl
  rw [← hok]
  exact .accepted fun h => absurd h (by rw [hclear]; decide)

/-- Every write of CMD is answered. -/
theorem answer_accessEffect {i : Instr} {code : Byte} (hw : i.wellFormed = true) (he : encodeWrite i = some (0x00#5, code)) :
    Answer s (accessEffect i 0#8 s) := by
  cases i with
  | load => exact answer_onSlot s fun _ => .accepted id
  | commit => exact answer_onSlot s (answer_commitSlot s)
  | start => exact answer_onSlot s (answer_startSlot s)
  | stop => exact answer_onSlot s (answer_stopSlot s)
  | trigger => exact answer_onSlot s (answer_triggerSlot s)
  | halt => exact .accepted (haltRun_cmderr s ▸ id)
  | resume => exact .accepted id
  | flush => exact .accepted id
  | discard => exact answer_discard s
  | reset l => exact answer_reset s l
  | badCmd code => exact .refused .badCmd nofun
  | registerWrite b w => cases he; cases hw
  | _ => exact absurd he nofun

variable {s}

/-- What an answer says of the status: a refusal changes CMDST and CMDERR alone, an acceptance does not set CMDERR (R158). -/
theorem Answer.status {t : State} (h : Answer s t) :
    (t.cmdst ≠ .ok → t = { s with cmdst := t.cmdst, sysLatch := { s.sysLatch with cmderr := true } }) ∧
    (t.cmdst = .ok → t.sysLatch.cmderr = true → s.sysLatch.cmderr = true) := by
  cases h with
  | refused c hc => exact ⟨fun _ => rfl, fun hok => absurd hok hc⟩
  | accepted h => exact ⟨fun hne => absurd rfl hne, fun _ => h⟩

/-- Settles O14: every write of CMD is answered. -/
theorem refusedCommandChangesOnlyStatus : Obligations.RefusedCommandChangesOnlyStatus := by
  intro i code s hr hw he
  exact ⟨_, exec_write_ready hr hw he, (answer_accessEffect (s.setDataOut none) hw he).status⟩

/-- Settles O15: BAD_SLOT comes before the command's own checks, and no other code is a command's. -/
theorem portRefusesBadSlotsAndCodes : Obligations.PortRefusesBadSlotsAndCodes := by
  intro s hr
  refine ⟨fun i hc hi => ?_, fun code hcode => exec_badCmd_ready hr ((badCmd_wellFormed_iff code).2 hcode)⟩
  have refuses (f : Slot → State → State) : onSlot f (s.setDataOut none) = refuseCmd .badSlot (s.setDataOut none) :=
    onSlot_of_ge _ f hc
  rcases hi with rfl | rfl | rfl | rfl | rfl
  · exact (exec_load_ready hr).trans (congrArg _ (refuses loadSlot))
  · exact (exec_commit_ready hr).trans (congrArg _ (refuses commitSlot))
  · exact (exec_start_ready hr).trans (congrArg _ (refuses startSlot))
  · exact (exec_stop_ready hr).trans (congrArg _ (refuses stopSlot))
  · exact (exec_trigger_ready hr).trans (congrArg _ (refuses triggerSlot))

end Sys2Proof.Machine
end

section
/-! SUPPORT. Writes given while CLK is stopped (R164). -/

namespace Sys2Proof.Machine

/-- The access that waits for a write given while CLK is stopped. -/
def waitingWrite (i : Instr) : WaitingAccess := { access := i, returned := 0#8 }

/-- What the part drives after a list of writes that began with d on the data lines (R151). -/
def drivenAfter (d : Option Byte) : List Instr → Option Byte
  | [] => d
  | _ :: _ => none

theorem drivenAfter_cons (d : Option Byte) (i : Instr) (ws : List Instr) : drivenAfter d (i :: ws) = none := rfl

theorem drivenAfter_none (ws : List Instr) : drivenAfter none ws = none := by cases ws <;> rfl

/-- Every command of the list is a bus write of the table. -/
def AllWrites (ws : List Instr) : Prop := ∀ i ∈ ws, i.wellFormed = true ∧ ∃ a v, encodeWrite i = some (a, v)

variable {s : State} {ws : List Instr}

theorem State.setDataOut_self {d : Option Byte} (h : s.dataOut = d) : s.setDataOut d = s := by
  subst h
  rfl

/-- Writes to a ready part make their changes one after another. -/
theorem run_writes_ready (hr : Ready s) (hws : AllWrites ws) :
    runCommands ws s = .next (makeWaiting (ws.map waitingWrite) (s.setDataOut (drivenAfter s.dataOut ws))) := by
  induction ws generalizing s with
  | nil => rfl
  | cons i ws ih =>
    obtain ⟨⟨hw, a, v, he⟩, hrest⟩ := List.forall_mem_cons.1 hws
    have hbus := sameBus_accessEffect (s.setDataOut none) i 0#8
    have hnone : (accessEffect i 0#8 (s.setDataOut none)).dataOut = none := hbus.dataOut
    rw [runCommands_cons (exec_write_ready hr hw he), ih (hbus.ready hr) hrest, hnone, drivenAfter_none,
      State.setDataOut_self hnone]
    rfl

/-- Writes to a part with CLK stopped are recorded one after another. -/
theorem run_writes_stopped (hs : s.held = false) (hc : s.clkRunning = false) (hws : AllWrites ws) :
    runCommands ws s = .next { s with
      dataOut := drivenAfter s.dataOut ws, waiting := s.waiting ++ ws.map waitingWrite } := by
  induction ws generalizing s with
  | nil => simp [runCommands, drivenAfter]
  | cons i ws ih =>
    obtain ⟨⟨hw, a, v, he⟩, hrest⟩ := List.forall_mem_cons.1 hws
    have hwaits := (exec_write s hw he).trans (congrArg _ (takeWrite_stopped hs hc i _))
    rw [runCommands_cons hwaits]
    refine (ih (s := { s with dataOut := none, waiting := s.waiting ++ [waitingWrite i] }) hs hc hrest).trans ?_
    simp only [drivenAfter_none, drivenAfter_cons, List.append_assoc, List.map_cons, List.singleton_append]

/-- Settles O12: the writes that waited are made in bus order on the part that CLK left. -/
theorem waitingWritesAreTakenInBusOrder : Obligations.WaitingWritesAreTakenInBusOrder := by
  intro ws s hr hempty hws
  refine ⟨_, run_writes_ready hr hws, ?_⟩
  have hstop : runCommands ([.clkStop] ++ ws) s = .next { s with
      clkRunning := false, dataOut := drivenAfter s.dataOut ws, waiting := s.waiting ++ ws.map waitingWrite } :=
    run_writes_stopped (s := { s with clkRunning := false }) hr.1 rfl hws
  rw [runCommands_concat hstop, exec_clkRunsAgain, hempty, List.nil_append]
  obtain ⟨-, hclk⟩ := hr
  rw [resumed, ← hclk, ← hempty]
  rfl

end Sys2Proof.Machine
end

section
/-! SUPPORT. What the status registers show (R152, R157, R162, R163). -/

namespace Sys2Proof.Machine

variable {s : State}

theorem readRegister_unmapped {a : Addr} (h : 0x17 ≤ a.toNat) (s : State) : readRegister a s = 0x00#8 := by
  unfold readRegister
  split
  case h_24 => rfl
  all_goals omega

theorem dstat_toNat (s : State) : (dstat s).toNat = 64 * s.runState.enc.toNat + 32 * s.conv.isSome.toNat
    + 16 * s.rq.readIndex.isSome.toNat + 8 * s.rq.records.isEmpty.toNat + 4 * (s.rq.pendingGap != 0#8).toNat := by
  simp only [dstat, append_toNat, BitVec.toNat_ofBool, BitVec.toNat_ofNat]
  omega

/-- A count that fits into a byte is read as it is. -/
theorem ofNat_byte_toNat {n k : Nat} (hn : n ≤ k) (hk : k < 256) : (BitVec.ofNat 8 n).toNat = n := by
  rw [BitVec.toNat_ofNat]
  omega

theorem curtask_idle (h : s.conv = none) : curtask s = 0xFF#8 := by simp [curtask, h]

theorem curtask_busy {c : Conversion} (h : s.conv = some c) : (curtask s).toNat = c.slot.val := by
  simp only [curtask, h]
  exact ofNat_byte_toNat (Nat.le_of_lt c.slot.isLt) (by decide)

/-- Settles O5, register by register. -/
theorem statusViewsShowState : Obligations.StatusViewsShowState := by
  refine fun s => ⟨fun a h => readRegister_unmapped h s, ?_, rfl, (dstat_toNat s).trans ?_, curtask_idle,
    fun c => curtask_busy, fun h => ofNat_byte_toNat h (by decide), fun h => ofNat_byte_toNat h (by decide),
    fun h => ofNat_byte_toNat h (by decide)⟩
  · show s.cmdst.byte.toNat = _
    cases s.cmdst <;> rfl
  · have hempty : 8 * s.rq.records.isEmpty.toNat = if s.rq.records = [] then 8 else 0 := by cases s.rq.records <;> rfl
    have hgap : 4 * (s.rq.pendingGap != 0#8).toNat = if s.rq.pendingGap = 0#8 then 0 else 4 := by
      by_cases h : s.rq.pendingGap = 0#8 <;> simp [h]
    rw [weight_of_part, weight_of_part, hempty, hgap]
    cases s.runState <;> rfl

end Sys2Proof.Machine
end

section
/-! SUPPORT. The strobes of the bus (R151). -/

namespace Sys2Proof.Machine

/-- A sample held changes the port once. -/
theorem nextPort_held {p : BusPort} (h : p.lost = false) (x : BusPins) :
    nextPort (nextPort p x) x = nextPort p x := by
  simp only [nextPort, takesRead, sameCycle, h, BusPort.mk.injEq, true_and]
  cases x.readStrobe <;> cases x.resLow <;> simp

/-- Samples that leave the port as it is take no access. -/
theorem busAccesses_steady {p : BusPort} {x : BusPins} (h : nextPort p x = p) (k : Nat) (xs : List BusPins) :
    busAccesses p (List.replicate k x ++ xs) = busAccesses p xs := by
  have hlast : x = p.last := congrArg BusPort.last h
  have hquiet : accessesAt p x = [] := by simp [accessesAt, takesWrite, takesRead, hlast]
  induction k with
  | zero => rfl
  | succ k ih => rw [List.replicate_succ, List.cons_append, busAccesses, hquiet, h, ih, List.nil_append]

/-- A sample held for any time takes the accesses of its first moment. -/
theorem busAccesses_held {p : BusPort} (h : p.lost = false) (x : BusPins) (k : Nat) (xs : List BusPins) :
    busAccesses p (List.replicate (k + 1) x ++ xs) = accessesAt p x ++ busAccesses (nextPort p x) xs := by
  rw [List.replicate_succ, List.cons_append, busAccesses, busAccesses_steady (nextPort_held h x)]

/-- Settles O4: each strobe, held for any time, takes what its first sample takes, and its end the rest. -/
theorem busStrobesTakeOneAccess : Obligations.BusStrobesTakeOneAccess := by
  intro a b x y k off rd wr rw nocs
  refine ⟨(busAccesses_held rfl rd k _).trans rfl, (busAccesses_held rfl wr k _).trans rfl,
    (busAccesses_held rfl rw k _).trans rfl, (busAccesses_held rfl rw k _).trans rfl, ?_,
    (busAccesses_held rfl nocs k _).trans rfl⟩
  show accessesAt idlePort rd ++ busAccesses (nextPort idlePort rd) (List.replicate (k + 1) rw ++ [off]) = _
  rw [busAccesses_held rfl]
  rfl

end Sys2Proof.Machine
end

section
/-! SUPPORT. The byte of a read on D7 to D0 while its strobe lasts, and the cycles that a reset overlaps (R151, R161). -/

namespace Sys2Proof.Machine

/-! ### A read in progress (R151) -/

/-- The pins of a read strobe: CS# and RD# low, WR# high, and RES# high. -/
def readPins (a : Addr) (d : Byte) : BusPins := { csLow := true, rdLow := true, wrLow := false, addr := a, data := d }

/-- A read is in progress whose byte is y, with the hold as given. -/
structure ReadInProgress (y : Option Byte) (held : Bool) (b : BusSystem) : Prop where
  reading : b.port.reading = true
  strobe : b.port.last.readStrobe = true
  noWrite : b.port.last.wrLow = false
  latched : b.latched = y
  held : b.part.held = held

variable {b : BusSystem} {y : Option Byte} {held : Bool}

/-- While a read is in progress its byte is on the lines, unless the part is held. -/
theorem ReadInProgress.lines (h : ReadInProgress y held b) : b.lines = if held then none else y := by
  simp [BusSystem.lines, BusPort.drives, h.reading, h.strobe, h.noWrite, h.latched, h.held]

/-- The read strobe held on takes no access and goes on with the read. -/
theorem ReadInProgress.pins (h : ReadInProgress y held b) (l : Level) (e : Addr) (v : Byte) :
    ∃ c, busStep (.pins l (readPins e v)) b = .next c ∧ ReadInProgress y held c := by
  refine ⟨_, samplePins_quiet l (accessesAt_reading h.strobe h.noWrite rfl), ?_, rfl, rfl, h.latched, h.held⟩
  simp [nextPort, h.reading, readPins, BusPins.readStrobe]

/-- A command that is no reset leaves a read in progress. -/
theorem ReadInProgress.command (h : ReadInProgress y held b) {i : Instr} (hw : i.wellFormed = true)
    (hres : ∀ w l, i ≠ .powerOnReset w l) (hvcc : i ≠ .vccApplied) :
    ∃ c, busStep (.command i) b = .next c ∧ ReadInProgress y held c := by
  obtain ⟨t, hexec, -⟩ := exec_completes b.part hw
  have hover : overlapsCycle i b.part = false := by
    cases i with
    | powerOnReset w l => exact absurd rfl (hres w l)
    | vccApplied => exact absurd rfl hvcc
    | _ => rfl
  refine ⟨{ b with part := t }, ?_, h.reading, h.strobe, h.noWrite, h.latched,
    (exec_held i b.part t hexec hres hvcc).trans h.held⟩
  simp [busStep, hexec, hover]

/-- An input that goes on with a read: the strobe held on, or a command that is no reset. -/
def KeepsRead (x : BusInput) : Prop :=
  (∃ l e v, x = .pins l (readPins e v)) ∨
  (∃ i, x = .command i ∧ i.wellFormed = true ∧ (∀ w l, i ≠ .powerOnReset w l) ∧ i ≠ .vccApplied)

/-- Such inputs, however many, go on with the read. -/
theorem ReadInProgress.run (h : ReadInProgress y held b) {later : List BusInput} (hl : ∀ x ∈ later, KeepsRead x) :
    ∃ c, runBus later b = .next c ∧ ReadInProgress y held c := by
  induction later generalizing b with
  | nil => exact ⟨b, rfl, h⟩
  | cons x xs ih =>
    obtain ⟨hx, hxs⟩ := List.forall_mem_cons.1 hl
    have hstep : ∃ c, busStep x b = .next c ∧ ReadInProgress y held c := by
      rcases hx with ⟨l, e, v, rfl⟩ | ⟨i, rfl, hw, hres, hvcc⟩
      · exact h.pins l e v
      · exact h.command hw hres hvcc
    obtain ⟨c, hc, hread⟩ := hstep
    simp only [runBus, hc]
    exact ih hread hxs

/-! ### The end of a read (R151, R161) -/

/-- The read ends when CS# or RD# rises, with nothing on the lines and no access taken. -/
theorem ReadInProgress.strobe_rises (h : ReadInProgress y held b) (l : Level) {off : BusPins}
    (hoff : off.csLow = false ∨ off.rdLow = false) : ∃ e, busStep (.pins l off) b = .next e ∧ e.lines = none := by
  have hrise : off.readStrobe = false := by
    rcases hoff with hhigh | hhigh <;> simp [BusPins.readStrobe, hhigh]
  have hquiet : accessesAt b.port off = [] := by
    simp [accessesAt, takesWrite, takesRead, BusPins.writeStrobe, h.noWrite, hrise]
  exact ⟨_, samplePins_quiet l hquiet, BusSystem.lines_released (by simp [nextPort, BusPort.drives, hrise])⟩

/-- A reset leaves nothing on the lines. -/
theorem reset_releases_lines {i : Instr} {t : State} (hexec : exec i b.part = .next t)
    (hover : overlapsCycle i b.part = true) : ∃ e, busStep (.command i) b = .next e ∧ e.lines = none := by
  refine ⟨{ b with part := t, port := resetPort b.port }, by simp [busStep, hexec, hover], ?_⟩
  exact BusSystem.lines_released rfl

/-! ### A read taken (R151, R154) -/

variable {s : State} {a : Addr} {trig : Level}

theorem takeAccess_read_command {i : Instr} (h : decodeRead a = some i) : takeAccess trig (.read a) s = exec i s := by
  simp only [takeAccess, h]

theorem takeAccess_read_plain (h : decodeRead a = none) : takeAccess trig (.read a) s = .next (plainRead a s) := by
  simp only [takeAccess, h]

/-- The falling read strobe takes its read, which is in progress then, with its byte on the lines. -/
theorem read_strobe_falls (s : State) (a : Addr) (trig : Level) (d : Byte) (y : Option Byte) :
    ∃ b, busStep (.pins trig (readPins a d)) { part := s, port := idlePort, latched := y } = .next b ∧
      takeAccess trig (.read a) s = .next b.part ∧ b.part.dataOut = busByte a s ∧
      ReadInProgress (busByte a s) s.held b ∧ b.lines = busByte a s := by
  obtain ⟨t, htake, hout, hheld⟩ := takeAccess_read trig a s
  have haccess : accessesAt idlePort (readPins a d) = [.read a] := rfl
  have htaken : takesRead idlePort (readPins a d) = true := rfl
  have hread : ReadInProgress (busByte a s) s.held
      { part := t, port := nextPort idlePort (readPins a d), latched := t.dataOut } := ⟨rfl, rfl, rfl, hout, hheld⟩
  refine ⟨_, by simp [busStep, samplePins, haccess, htaken, takeAccesses, htake], htake, hout, hread, ?_⟩
  rw [hread.lines, busByte]
  split <;> rfl

/-! ### A write cycle that a reset overlaps (R161) -/

/-- A write strobe that falls takes no access yet. -/
theorem accessesAt_write_falls {x : BusPins} (h : x.rdLow = false) : accessesAt idlePort x = [] := by
  simp [accessesAt, takesWrite, takesRead, idlePort, BusPins.writeStrobe, BusPins.readStrobe, h]

/-- A lost write cycle takes no access at its end (R161). -/
theorem accessesAt_lost {p : BusPort} (h : p.lost = true) {x : BusPins} (hx : x.csLow = false) : accessesAt p x = [] := by
  simp [accessesAt, takesWrite, takesRead, BusPins.readStrobe, h, hx]

/-- A write strobe that falls, a power-on reset, and the end of the strobe: the write is not taken. -/
theorem run_write_lost (s : State) (trig l : Level) (y : Option Byte) {wr off : BusPins} (hwr : wr.rdLow = false)
    (hoff : off.csLow = false) :
    runBus [.pins trig wr, .command (.powerOnReset .full l), .pins trig off] { part := s, port := idlePort, latched := y } =
      .next { part := powerOnEffect l s, port := nextPort (resetPort (nextPort idlePort wr)) off, latched := y } := by
  have hfalls : busStep (.pins trig wr) { part := s, port := idlePort, latched := y } =
      .next { part := s, port := nextPort idlePort wr, latched := y } := samplePins_quiet trig (accessesAt_write_falls hwr)
  have hreset : busStep (.command (.powerOnReset .full l)) { part := s, port := nextPort idlePort wr, latched := y } =
      .next { part := powerOnEffect l s, port := resetPort (nextPort idlePort wr), latched := y } := rfl
  have hends : busStep (.pins trig off) { part := powerOnEffect l s, port := resetPort (nextPort idlePort wr), latched := y } =
      .next { part := powerOnEffect l s, port := nextPort (resetPort (nextPort idlePort wr)) off, latched := y } :=
    samplePins_quiet trig (accessesAt_lost rfl hoff)
  simp only [runBus, hfalls, hreset, hends]

/-- Settles O60: the read is in progress from its strobe's fall, through any inputs but resets, to its rise. -/
theorem busReadsDriveAndHoldTheByte : Obligations.BusReadsDriveAndHoldTheByte := by
  constructor
  · intro s a trig d y later hlater rd
    obtain ⟨b, hfalls, htake, hout, hread, hlines⟩ := read_strobe_falls s a trig d y
    obtain ⟨c, hrun, hc⟩ := hread.run hlater
    refine ⟨b, c, hfalls, hlines, hout.trans hlines.symm, fun i hi => ?_, fun hn => ?_, hrun,
      hc.lines.trans hread.lines.symm, fun l off => hc.strobe_rises l,
      fun l => reset_releases_lines (exec_powerOnReset_full _ l) rfl, reset_releases_lines (exec_vccApplied _) rfl⟩
    · rw [← htake, takeAccess_read_command hi]
    · have hplain : b.part = plainRead a s := Host.Outcome.next.inj (htake.symm.trans (takeAccess_read_plain hn))
      rw [hplain, hlines]
      rfl
  · intro s a trig l v y wr off
    exact ⟨_, run_write_lost s trig l y rfl rfl, exec_powerOnReset_full s l, BusSystem.lines_released rfl⟩

end Sys2Proof.Machine
end
